-- ==== Sys2Proof/Word.lean ====
section
/-! DEFINITION. The widths of the block: bus bytes, register words, command words (R10, R28, R51, R71). -/

namespace Sys2Proof

/-- A bus byte, an operand byte, a sub-address: 8 bits (R10). -/
abbrev Byte := BitVec 8

/-- The significant half of a controller register word, and one entry of the output log: 16 bits (R22, R51). -/
abbrev Half := BitVec 16

/-- A command word, and the whole of a register word on the host's bus: 32 bits (R51, R71). -/
abbrev Word := BitVec 32

end Sys2Proof
end

