-- ==== Sys2Proof/Config.lean ====
section
/-! DEFINITION. The implementation parameters of R10, as a record a state carries unchanged, and the free values:
opaque constants, so that no proof can see what they are. -/

namespace Sys2Proof

/-- `RX_ACK_WINDOW` (R10, D13): may a received byte complete before the host's first access after ADDR is cleared? -/
inductive RxAckWindow where
  | hostFirst
  | free
deriving DecidableEq, Repr, Inhabited

/-- `BINDING` (R10, R29): offsets of the four registers from `I2C_BASE` and bit positions of the named fields. The offsets' 32 bits are a DESIGN
CHOICE (log 36). -/
structure Binding where
  crOffset  : Word
  drOffset  : Word
  sr1Offset : Word
  sr2Offset : Word
  pe    : Fin 16
  start : Fin 16
  stop  : Fin 16
  ack   : Fin 16
  sb    : Fin 16
  addr  : Fin 16
  btf   : Fin 16
  rxne  : Fin 16
  af    : Fin 16
deriving DecidableEq, Repr

/-- The default of `BINDING`, the STM32F1 layout of R29.
PRESUMED, unsafe for claims on raw register words (the spec marks it general knowledge; log 11). -/
def Binding.stm32f1 : Binding where
  crOffset := 0x00
  drOffset := 0x10
  sr1Offset := 0x14
  sr2Offset := 0x18
  pe := 0
  start := 8
  stop := 9
  ack := 10
  sb := 0
  addr := 1
  btf := 2
  rxne := 6
  af := 10

/-- `SENSOR_MAP` (R10, R181, R183): sub-address of each named sensor register. -/
structure SensorMap where
  cfgA : Byte
  cfgB : Byte
  mode : Byte
  xLo  : Byte
  xHi  : Byte
  yLo  : Byte
  yHi  : Byte
  zLo  : Byte
  zHi  : Byte
deriving DecidableEq, Repr, Inhabited

/-- `SENSOR_CONFIG` (R181) and the alternates `calibrate_sensor()` writes (R185). -/
structure SensorConfig where
  vA : Byte
  vB : Byte
  vM : Byte
  calA : Byte
  calB : Byte
  calM : Byte
deriving DecidableEq, Repr, Inhabited

/-- The launch parameters of R10. A state carries them; no step changes them. -/
structure Config where
  devAddr7     : BitVec 7
  sensorMap    : SensorMap
  sensorConfig : SensorConfig
  binding      : Binding
  i2cBase      : Word
  sclRate      : Nat
  rxAckWindow  : RxAckWindow
  hardened     : Bool
  ackInit      : Bool
  crOther      : Half
  busStuck     : Bool
deriving DecidableEq, Repr

/-! ### The OPEN parameters of R10

DESIGN CHOICE, safe (log 10): the spec gives no value, so each is a constant with no body. -/

/-- `DEV_ADDR7`, OPEN (R10, D31). -/
opaque Config.openDevAddr7 : BitVec 7
/-- `SENSOR_MAP`, OPEN (R10, D31). -/
opaque Config.openSensorMap : SensorMap
/-- `SENSOR_CONFIG`, OPEN (R181, D31). -/
opaque Config.openSensorConfig : SensorConfig
/-- `I2C_BASE`, OPEN (R10, R57). Its 32 bits are a DESIGN CHOICE (log 36). -/
opaque Config.openI2cBase : Word
/-- `SCL_RATE`, OPEN and read by no rule (R10, R237). -/
opaque Config.openSclRate : Nat
/-- `ACK_INIT`, OPEN (R10, R222). -/
opaque Config.openAckInit : Bool
/-- `CR_OTHER`, OPEN (R10, R39). -/
opaque Config.openCrOther : Half
/-- `BUS_STUCK`, a launch parameter with no default (R10, D30). -/
opaque Config.openBusStuck : Bool

/-- The parameters `State.reset` carries: the spec's defaults where it gives one (BINDING, RX_ACK_WINDOW, HARDENED), the
OPEN constants elsewhere (R10). -/
def Config.atReset : Config where
  devAddr7 := Config.openDevAddr7
  sensorMap := Config.openSensorMap
  sensorConfig := Config.openSensorConfig
  binding := Binding.stm32f1
  i2cBase := Config.openI2cBase
  sclRate := Config.openSclRate
  rxAckWindow := .hostFirst
  hardened := false
  ackInit := Config.openAckInit
  crOther := Config.openCrOther
  busStuck := Config.openBusStuck

/-! ### The draws of R13

DESIGN CHOICE, safe (log 3): the k-th draw of a run is a constant with no body, applied to the counter `State.draws`. -/

/-- `draw UInt16` (R13, R26, R27): any 16-bit value. -/
opaque Config.freeWord : Nat → Half
/-- `draw UInt8` (R13, R109): any byte. -/
opaque Config.freeByte : Nat → Byte

/-- One event on the bus as the device sees it, with the answer the device gave (R140). -/
inductive BusEvent where
  | start
  | address (a : Byte) (ack : Bool)
  | data (b : Byte) (ack : Bool)
  | read (b : Byte)
  | stop
deriving DecidableEq, Repr

/-! ### The device oracle of R140

DESIGN CHOICE, safe (log 4): an answer may depend on everything the device has been sent, and is under no law. -/

/-- The answer to `ackAddr(a)` after the given bus events (R140). -/
opaque Config.oracleAckAddr : List BusEvent → Byte → Bool
/-- The answer to `ackData(b)` after the given bus events (R140). -/
opaque Config.oracleAckData : List BusEvent → Byte → Bool
/-- The answer to `readByte()` after the given bus events (R140). -/
opaque Config.oracleReadByte : List BusEvent → Byte

end Sys2Proof
end

