-- ==== Sys2Proof/Syntax.lean ====
section
/-! DEFINITION. The sixteen commands, one constructor per row of spec/opcode_table.json (R73). -/

namespace Sys2Proof

/-- A decoded command. Operands are raw bytes, neither scaled nor shifted (R72). -/
inductive Instr where
  /-- BEGIN, OP 0x01 (R152). -/
  | beginTxn
  /-- ADDRESS a, OP 0x02: the complete address-plus-direction byte (R153). -/
  | address (a : Byte)
  /-- WRITE_BYTE b, OP 0x03 (R154). -/
  | writeByte (b : Byte)
  /-- READ_BYTE, OP 0x04 (R155). -/
  | readByte
  /-- END, OP 0x05 (R156). -/
  | endTxn
  /-- READ_REG s, OP 0x10 (R171). -/
  | readReg (sub : Byte)
  /-- WRITE_REG s, v, OP 0x11 (R172). -/
  | writeReg (sub : Byte) (value : Byte)
  /-- RD_CR, OP 0x20 (R101). -/
  | rdCr
  /-- SET_START, OP 0x21 (R102). -/
  | setStart
  /-- SET_STOP, OP 0x22 (R103). -/
  | setStop
  /-- SET_ACK, OP 0x23 (R104). -/
  | setAck
  /-- CLR_ACK, OP 0x24 (R105). -/
  | clrAck
  /-- RD_SR1, OP 0x25 (R106). -/
  | rdSr1
  /-- RD_SR2, OP 0x26 (R107). -/
  | rdSr2
  /-- WR_DR b, OP 0x27 (R108). -/
  | wrDr (b : Byte)
  /-- RD_DR, OP 0x28 (R109). -/
  | rdDr
deriving DecidableEq, Repr

end Sys2Proof
end

