-- ==== Sys2Proof/WellFormed.lean ====
section
/-! DEFINITION. What must hold of the data a model is given: the binding, the launch parameters, and the operands of a
command before they are bytes. -/

namespace Sys2Proof

/-- Every operand of a command is one byte and every byte is a legal operand (R72: raw bytes; V-D14, V-D15: zero is one too), so
the type `Byte` carries the whole check and every `Instr` is well formed. -/
def Instr.wellFormed (_ : Instr) : Bool := true

/-- An operand as it is spelled in assembly, "each 0–255" (R77). -/
def operandInRange (n : Nat) : Bool := n < 256

/-- The four modelled fields of CR have four different positions (R29). -/
def Binding.crDistinct (b : Binding) : Bool := [b.pe, b.start, b.stop, b.ack].Nodup

/-- The five modelled flags of SR1 have five different positions (R29). -/
def Binding.sr1Distinct (b : Binding) : Bool := [b.sb, b.addr, b.btf, b.rxne, b.af].Nodup

/-- The four registers have four different offsets (R29). -/
def Binding.offsetsDistinct (b : Binding) : Bool := [b.crOffset, b.drOffset, b.sr1Offset, b.sr2Offset].Nodup

/-- Every register sits at an aligned word (R53). -/
def Binding.offsetsAligned (b : Binding) : Bool :=
  [b.crOffset, b.drOffset, b.sr1Offset, b.sr2Offset].all fun o => o.toNat % 4 == 0

/-- A binding that keeps every named field apart from every other. -/
def Binding.wellFormed (b : Binding) : Bool :=
  b.crDistinct && b.sr1Distinct && b.offsetsDistinct && b.offsetsAligned

/-- `CR_OTHER` "must be 0 at the four modelled positions" (R39). -/
def crOtherClear (b : Binding) (v : Half) : Bool :=
  [b.pe, b.start, b.stop, b.ack].all fun i => !v.getLsbD i.val

/-- The base address is word aligned, as every register of the block is (R53). -/
def Config.baseAligned (c : Config) : Bool := c.i2cBase.toNat % 4 == 0

/-- Launch parameters the spec admits: a well-formed binding, `CR_OTHER` clear at the modelled positions (R39), an aligned base
(R53), and `HARDENED = false` (R206). -/
def Config.wellFormed (c : Config) : Bool :=
  c.binding.wellFormed && crOtherClear c.binding c.crOther && c.baseAligned && !c.hardened

end Sys2Proof
end

