-- ==== Sys2Proof/Decode.lean ====
section
/-! DEFINITION. The encoding of command words (R70–R76): the opcode map, the decoder, total on every 32-bit word and on every list
of bytes, and the encoder. -/

namespace Sys2Proof

/-- The sixteen rows of the opcode map (R73). -/
inductive Op where
  | beginTxn | address | writeByte | readByte | endTxn | readReg | writeReg
  | rdCr | setStart | setStop | setAck | clrAck | rdSr1 | rdSr2 | wrDr | rdDr
deriving DecidableEq, Repr

/-- The class of a command: Raw or Txn (R24, R73). -/
inductive CmdClass where
  | raw
  | txn
deriving DecidableEq, Repr

/-- Why a word or a list of bytes decodes to nothing (R74, R75). -/
inductive DecodeError where
  /-- No row of R73 has this OP. -/
  | reservedOpcode (op : Byte)
  /-- The reserved field Z is not 0. -/
  | reservedField (z : Byte)
  /-- B is not 0 on a command that does not use it. -/
  | unusedOperandB (b : Byte)
  /-- A is not 0 on a command that does not use it. -/
  | unusedOperandA (a : Byte)
  /-- Fewer than the four bytes of a command (R76). -/
  | truncated
deriving DecidableEq, Repr

/-- The opcode value of each row (R73). -/
def Op.code : Op → Byte
  | .beginTxn => 0x01
  | .address => 0x02
  | .writeByte => 0x03
  | .readByte => 0x04
  | .endTxn => 0x05
  | .readReg => 0x10
  | .writeReg => 0x11
  | .rdCr => 0x20
  | .setStart => 0x21
  | .setStop => 0x22
  | .setAck => 0x23
  | .clrAck => 0x24
  | .rdSr1 => 0x25
  | .rdSr2 => 0x26
  | .wrDr => 0x27
  | .rdDr => 0x28

/-- Every row of the opcode map, in the table's order. -/
def Op.all : List Op :=
  [.beginTxn, .address, .writeByte, .readByte, .endTxn, .readReg, .writeReg,
   .rdCr, .setStart, .setStop, .setAck, .clrAck, .rdSr1, .rdSr2, .wrDr, .rdDr]

/-- The row whose OP is `c`, if there is one (R74 condition 1). -/
def Op.ofCode (c : Byte) : Option Op := Op.all.find? fun o => o.code == c

/-- The rows that use operand A (R74 condition 4). -/
def Op.usesA : Op → Bool
  | .address | .writeByte | .readReg | .writeReg | .wrDr => true
  | .beginTxn | .readByte | .endTxn | .rdCr | .setStart | .setStop | .setAck | .clrAck | .rdSr1 | .rdSr2 | .rdDr => false

/-- Only WRITE_REG uses operand B (R74 condition 3). -/
def Op.usesB : Op → Bool
  | .writeReg => true
  | .beginTxn | .address | .writeByte | .readByte | .endTxn | .readReg => false
  | .rdCr | .setStart | .setStop | .setAck | .clrAck | .rdSr1 | .rdSr2 | .wrDr | .rdDr => false

/-- "Raw commands are opcodes 0x20–0x28. Txn commands are opcodes 0x01–0x05 and 0x10–0x11" (R24). -/
def Op.cls : Op → CmdClass
  | .beginTxn | .address | .writeByte | .readByte | .endTxn | .readReg | .writeReg => .txn
  | .rdCr | .setStart | .setStop | .setAck | .clrAck | .rdSr1 | .rdSr2 | .wrDr | .rdDr => .raw

/-- The mnemonic of each row (R73). -/
def Op.mnemonic : Op → String
  | .beginTxn => "BEGIN"
  | .address => "ADDRESS"
  | .writeByte => "WRITE_BYTE"
  | .readByte => "READ_BYTE"
  | .endTxn => "END"
  | .readReg => "READ_REG"
  | .writeReg => "WRITE_REG"
  | .rdCr => "RD_CR"
  | .setStart => "SET_START"
  | .setStop => "SET_STOP"
  | .setAck => "SET_ACK"
  | .clrAck => "CLR_ACK"
  | .rdSr1 => "RD_SR1"
  | .rdSr2 => "RD_SR2"
  | .wrDr => "WR_DR"
  | .rdDr => "RD_DR"

/-- The command of a row with its operand bytes; a row ignores the bytes it does not use. -/
def Op.build : Op → Byte → Byte → Instr
  | .beginTxn, _, _ => .beginTxn
  | .address, a, _ => .address a
  | .writeByte, a, _ => .writeByte a
  | .readByte, _, _ => .readByte
  | .endTxn, _, _ => .endTxn
  | .readReg, a, _ => .readReg a
  | .writeReg, a, b => .writeReg a b
  | .rdCr, _, _ => .rdCr
  | .setStart, _, _ => .setStart
  | .setStop, _, _ => .setStop
  | .setAck, _, _ => .setAck
  | .clrAck, _, _ => .clrAck
  | .rdSr1, _, _ => .rdSr1
  | .rdSr2, _, _ => .rdSr2
  | .wrDr, a, _ => .wrDr a
  | .rdDr, _, _ => .rdDr

/-- The row a command belongs to. -/
def Instr.op : Instr → Op
  | .beginTxn => .beginTxn
  | .address _ => .address
  | .writeByte _ => .writeByte
  | .readByte => .readByte
  | .endTxn => .endTxn
  | .readReg _ => .readReg
  | .writeReg _ _ => .writeReg
  | .rdCr => .rdCr
  | .setStart => .setStart
  | .setStop => .setStop
  | .setAck => .setAck
  | .clrAck => .clrAck
  | .rdSr1 => .rdSr1
  | .rdSr2 => .rdSr2
  | .wrDr _ => .wrDr
  | .rdDr => .rdDr

/-- The first operand byte A of a command, 0 where it has none (R71). -/
def Instr.fieldA : Instr → Byte
  | .address a => a
  | .writeByte b => b
  | .readReg s => s
  | .writeReg s _ => s
  | .wrDr b => b
  | .beginTxn | .readByte | .endTxn | .rdCr | .setStart | .setStop | .setAck | .clrAck | .rdSr1 | .rdSr2 | .rdDr => 0

/-- The second operand byte B: "the value for WRITE_REG; otherwise 0" (R71). -/
def Instr.fieldB : Instr → Byte
  | .writeReg _ v => v
  | .beginTxn | .address _ | .writeByte _ | .readByte | .endTxn | .readReg _ => 0
  | .rdCr | .setStart | .setStop | .setAck | .clrAck | .rdSr1 | .rdSr2 | .wrDr _ | .rdDr => 0

/-! ### The fields of format C (R71) -/

/-- `OP`, bits [7:0]. -/
def wordOp (w : Word) : Byte := w.extractLsb' 0 8
/-- `A`, bits [15:8]. -/
def wordA (w : Word) : Byte := w.extractLsb' 8 8
/-- `B`, bits [23:16]. -/
def wordB (w : Word) : Byte := w.extractLsb' 16 8
/-- `Z`, bits [31:24]. -/
def wordZ (w : Word) : Byte := w.extractLsb' 24 8

/-- Decoding of a command word, its four conditions in the order of R74. -/
def decode (w : Word) : Except DecodeError Instr :=
  match Op.ofCode (wordOp w) with
  | none => .error (.reservedOpcode (wordOp w))
  | some o =>
    if wordZ w ≠ 0 then .error (.reservedField (wordZ w))
    else if wordB w ≠ 0 ∧ o.usesB = false then .error (.unusedOperandB (wordB w))
    else if wordA w ≠ 0 ∧ o.usesA = false then .error (.unusedOperandA (wordA w))
    else .ok (o.build (wordA w) (wordB w))

/-- The word of a command: `Z ++ B ++ A ++ OP` with Z = 0 (R71). -/
def encode (i : Instr) : Word := 0#8 ++ i.fieldB ++ i.fieldA ++ i.op.code

/-- A command word from its four bytes, "Byte 0 of a command is bits [7:0]" (R52). -/
def wordOfBytes (b0 b1 b2 b3 : Byte) : Word := b3 ++ b2 ++ b1 ++ b0

/-- The four bytes of a command word, byte 0 first (R52). -/
def bytesOfWord (w : Word) : List Byte := [wordOp w, wordA w, wordB w, wordZ w]

/-- Decoding of a list of bytes: one command of exactly one word (R76), and the bytes after it. -/
def decodeBytes : List Byte → Except DecodeError (Instr × List Byte)
  | b0 :: b1 :: b2 :: b3 :: rest =>
    match decode (wordOfBytes b0 b1 b2 b3) with
    | .ok i => .ok (i, rest)
    | .error e => .error e
  | _ => .error .truncated

/-- The command stored as the low `nbits` bits of `w`, bit 0 the least significant bit of the command word and every bit above
`nbits` 0: what the decoder reads from its four bytes. -/
def decodeTableWord (nbits w : Nat) : Option Instr :=
  if w % 2 ^ nbits < 2 ^ 32 then
    match decodeBytes (bytesOfWord (BitVec.ofNat 32 (w % 2 ^ nbits))) with
    | .ok (i, _) => some i
    | .error _ => none
  else none

end Sys2Proof
end

