-- ==== Sys2Proof/Machine/State.lean ====
section
/-! DEFINITION. Everything the spec gives the machine, as plain data, and the state at reset (10_state.md, 41_controller_steps.md
R141, 60_exceptions.md R200). -/

namespace Sys2Proof.Machine

/-- The four modelled controller registers (R50, R51). -/
inductive Reg where
  | cr
  | dr
  | sr1
  | sr2
deriving DecidableEq, Repr

/-- The register accesses a host can make, the rows of the admission table (R100). Writes to SR1 and SR2 "are not
expressible" (R51), and every CR write sets or clears one modelled bit (R39, R54). -/
inductive Access where
  /-- RD_CR, RD_SR1, RD_SR2 or RD_DR. -/
  | read (r : Reg)
  | setStart
  | setStop
  | setAck
  | clrAck
  | wrDr (b : Byte)
deriving DecidableEq, Repr

/-- The controller's bus phase, not readable as a register (R40). -/
inductive Phase where
  | idle
  | msSb
  | msAddrTx (a : Byte)
  | msAddrAcked
  | mtReady
  | mtTx (b : Byte)
  | mtBtf
  | mrRx
  | mrDone
  | msNacked
deriving DecidableEq, Repr

/-- The transaction-grammar state of the command interface (R44). -/
inductive Txn where
  | idle
  | started
  | addrW
  | addrR
  | wrote
  | read
deriving DecidableEq, Repr

/-- The six model faults, each with the info it records (R201). -/
inductive FaultReason where
  | illegalCommand (word : Word)
  | mixedCommandClass (opcode : Byte)
  | sequenceViolation (opcode : Byte) (txn : Txn)
  | unmodelledAccess (access : Access) (phase : Phase)
  | rxByteAcked (b : Byte)
  | openTransactionAtEnd (txn : Txn)
deriving DecidableEq, Repr

/-- What a fault records: "`fault <- some (reason, cc, mpc, info)`" (R200). -/
structure FaultRecord where
  reason : FaultReason
  cc     : Nat
  mpc    : Nat
deriving DecidableEq, Repr

/-- Control register CR: four modelled fields and the other bits (R25, R35–R39). -/
structure ControlReg where
  pe    : Bool
  start : Bool
  stop  : Bool
  ack   : Bool
  other : Half
deriving DecidableEq, Repr

/-- The five modelled flags of SR1 (R26, R30–R34). -/
structure StatusFlags where
  sb   : Bool
  addr : Bool
  btf  : Bool
  rxne : Bool
  af   : Bool
deriving DecidableEq, Repr

/-- The clear-sequence latches sbArm, addrArm, btfArm (R42). -/
structure ArmLatches where
  sb   : Bool
  addr : Bool
  btf  : Bool
deriving DecidableEq, Repr

/-- The contents of the device's 256 sub-addresses as a list of cells in canonical form (`Memory.wf` in Ops.lean). -/
abbrev Memory := List Host.Cell

/-- What a sub-address no cell lists reads as: the "launch contents" of R46 are not given.
DESIGN CHOICE, unsafe (log 15). -/
def Memory.unlisted : Byte := 0x00

/-- The reference device: the simulated register file (R141). -/
structure RefDevice where
  regs    : Memory
  ptr     : Byte
  idx     : Nat
  sel     : Bool
  present : Bool
deriving DecidableEq, Repr

/-- Which device answers on the bus: the general oracle of R140, or the reference device of R141. -/
inductive DeviceBinding where
  | oracle
  | reference
deriving DecidableEq, Repr

/-- The two agents whose steps interleave (R6, R14). The device only answers. -/
inductive Agent where
  | host
  | controller
deriving DecidableEq, Repr

/-- The whole machine. INVENTORY.md, under "State", gives for each field its rule and its reset value. -/
structure State where
  /-- Launch parameters (R10, R45); no step changes them. -/
  cfg    : Config
  /-- Command stream, immutable for the run (R62, R70). -/
  cmds   : List Word
  /-- Command counter (R21). -/
  cc     : Nat
  /-- Action index inside the current command (R21). -/
  mpc    : Nat
  /-- Byte read but not yet logged (R21). -/
  tmp    : Byte
  /-- Output log (R22). -/
  obs    : List Half
  /-- The recorded fault (R23, R200). -/
  fault  : Option FaultRecord
  /-- Class of the first command (R24). -/
  cls    : Option CmdClass
  /-- Grammar state (R44). -/
  txn    : Txn
  /-- Control register (R25). -/
  cr     : ControlReg
  /-- Status register 1 (R26). -/
  sr1    : StatusFlags
  /-- Data register (R28). -/
  dr     : Byte
  /-- Bus phase (R40). -/
  phase  : Phase
  /-- Transfer direction, true for read (R41). -/
  dir    : Bool
  /-- Clear-sequence latches (R42). -/
  arm    : ArmLatches
  /-- Receive window (R43). -/
  rxWindowOpen : Bool
  /-- Which device is on the bus (R140, R141; log 4). -/
  device : DeviceBinding
  /-- The reference device (R141). -/
  ref    : RefDevice
  /-- Everything the device has been sent and has answered, oldest first (R140; log 5). -/
  trace  : List BusEvent
  /-- How many draws have been taken (R13; log 3). -/
  draws  : Nat
  /-- Who moves at the next steps; past its end the schedule is eager (R14, R59; log 2). -/
  sched  : List Agent
deriving DecidableEq, Repr

/-- Why the machine stops. A recorded fault of R201 is a next state; these are states with no further step. -/
inductive Fault where
  /-- Raised by the step and by every meaning in a state with a fault recorded: "no host action and no controller step is
  enabled" (R200). Safe: the spec gives no step either. -/
  | halted (r : FaultRecord)
  /-- Raised by the step where no agent has a step and no fault is recorded: the run is final (R207). Safe: the spec gives
  no step either. -/
  | runEnded
  /-- Raised by a meaning, and by the fetch of an undecodable word, where `mpc` names no action of the command. No run reaches
  it (R21). Safe: the model stops (log 8). -/
  | noSuchAction
deriving DecidableEq, Repr

/-- Why the model gives no meaning. -/
inductive Refusal where
  /-- Raised by an arm of `exec` whose instruction has no meaning yet; no arm is left. Safe. -/
  | notModelled (mnemonic : String)
  /-- Raised by the step and by every meaning under `HARDENED = true`: "no run of it is defined" (R206). Safe. -/
  | hardenedVariant
deriving DecidableEq, Repr

/-- The state at reset (R46, R220). `present` is the default of R141. The command stream is empty, and the model's own fields
and the launch parameters are as logs 2–5, 10, 15 and 16 say. -/
def State.reset : State where
  cfg := Config.atReset
  cmds := []
  cc := 0
  mpc := 0
  tmp := 0x00
  obs := []
  fault := none
  cls := none
  txn := .idle
  cr := { pe := false, start := false, stop := false, ack := false, other := 0x0000 }
  sr1 := { sb := false, addr := false, btf := false, rxne := false, af := false }
  dr := 0x00
  phase := .idle
  dir := false
  arm := { sb := false, addr := false, btf := false }
  rxWindowOpen := false
  device := .oracle
  ref := { regs := [], ptr := 0x00, idx := 0, sel := false, present := true }
  trace := []
  draws := 0
  sched := []

end Sys2Proof.Machine
end

