-- ==== Sys2Proof/Machine/Flags.lean ====
section
/-! DEFINITION. Flag computations: the register words that show the named fields at their binding positions (R25–R29), the
conditions a poll tests (R120, R152–R156), and what a read of SR1 arms (R42). -/

namespace Sys2Proof.Machine

/-- `v[i] <- x`: the word `v` with bit `i` set to `x` (R11, R101, R106). -/
def putBit (v : Half) (i : Fin 16) (x : Bool) : Half :=
  (v &&& ~~~(1#16 <<< i.val)) ||| ((BitVec.ofBool x).setWidth 16 <<< i.val)

/-- "`CR_OTHER` with bits PE, START, STOP, ACK (positions per BINDING) set to CR.PE, CR.START, CR.STOP, CR.ACK" (R101). -/
def crWord (b : Binding) (cr : ControlReg) : Half :=
  putBit (putBit (putBit (putBit cr.other b.pe cr.pe) b.start cr.start) b.stop cr.stop) b.ack cr.ack

/-- A draw with the five modelled flags put at their positions (R26, R106). -/
def sr1Word (b : Binding) (f : StatusFlags) (draw : Half) : Half :=
  putBit (putBit (putBit (putBit (putBit draw b.sb f.sb) b.addr f.addr) b.btf f.btf) b.rxne f.rxne) b.af f.af

/-- "Every SR1 read sets `sbArm <- SB`, `addrArm <- ADDR` and `btfArm <- BTF`" (R42). -/
def armedBy (f : StatusFlags) : ArmLatches := { sb := f.sb, addr := f.addr, btf := f.btf }

/-- All three latches cleared, as at start generation (R42). -/
def disarmed : ArmLatches := { sb := false, addr := false, btf := false }

/-- All five modelled flags of SR1 at 0. -/
def noFlags : StatusFlags := { sb := false, addr := false, btf := false, rxne := false, af := false }

/-- What the polls of the action lists wait for (R152–R156). -/
inductive Cond where
  /-- SB = 1 (BEGIN). -/
  | startSent
  /-- ADDR = 1 or AF = 1 (ADDRESS). -/
  | addressAnswered
  /-- BTF = 1 (WRITE_BYTE). -/
  | byteFinished
  /-- RXNE = 1 (READ_BYTE). -/
  | byteReceived
  /-- STOP = 0 (END). -/
  | stopSent
deriving DecidableEq, Repr

/-- The register a poll reads: CR for STOP, SR1 for the flags (R152–R156, conflict C8). -/
def Cond.reg : Cond → Reg
  | .startSent => .sr1
  | .addressAnswered => .sr1
  | .byteFinished => .sr1
  | .byteReceived => .sr1
  | .stopSent => .cr

/-- Bit `j` of `crWord`, field by field. -/
def crBit (b : Binding) (cr : ControlReg) (j : Fin 16) : Bool :=
  if j = b.ack then cr.ack
  else if j = b.stop then cr.stop
  else if j = b.start then cr.start
  else if j = b.pe then cr.pe
  else cr.other.getLsbD j.val

/-- Bit `j` of `sr1Word`, flag by flag: the draw is looked at only where no flag stands. -/
def sr1Bit (b : Binding) (f : StatusFlags) (draw : Half) (j : Fin 16) : Bool :=
  if j = b.af then f.af
  else if j = b.rxne then f.rxne
  else if j = b.btf then f.btf
  else if j = b.addr then f.addr
  else if j = b.sb then f.sb
  else draw.getLsbD j.val

end Sys2Proof.Machine
end

