-- ==== Sys2Proof/Machine/Operands.lean ====
section
/-! DEFINITION. Operand forms: the address-plus-direction byte and the widths moved between a byte and a register word (R28, R54,
R72). -/

namespace Sys2Proof.Machine

/-- Bits [7:1] of an address byte: the 7-bit device address (R72). -/
def addressBits (a : Byte) : BitVec 7 := a.extractLsb' 1 7

/-- Bit 0 of an address byte: the direction, true for read (R41, R72; D8). -/
def isRead (a : Byte) : Bool := a.getLsbD 0

/-- `addrW = (DEV_ADDR7 << 1) | 0` (R72). -/
def addrW (c : Config) : Byte := (c.devAddr7.setWidth 8 <<< 1) ||| 0

/-- `addrR = (DEV_ADDR7 << 1) | 1` (R72). -/
def addrR (c : Config) : Byte := (c.devAddr7.setWidth 8 <<< 1) ||| 1

/-- `zext_16(v)` of a byte: what a DR read returns and what is logged (R22, R54). -/
def zext16 (v : Byte) : Half := v.setWidth 16

/-- The low byte of a register word: what a DR write moves, bits [15:8] ignored (R28, R54). -/
def lowByte (v : Half) : Byte := v.setWidth 8

end Sys2Proof.Machine
end

