-- ==== Sys2Proof/Machine/Ops.lean ====
section
/-! DEFINITION. The shared operations: the device's memory, taking a model fault, the nine register accesses with their
admission, the actions of an action list, and how a command executes. -/

namespace Sys2Proof.Machine

/-! ### The sub-address space (R50, R141) -/

/-- The byte at a sub-address: its cell's, or what an unlisted sub-address reads as. -/
def Memory.read : Memory → Nat → Byte
  | [], _ => Memory.unlisted
  | (b, w) :: m, a => if a = b then w else Memory.read m a

/-- The memory with `v` at sub-address `a`, in canonical form again: writing what an unlisted sub-address reads as removes the
cell. -/
def Memory.write : Memory → Nat → Byte → Memory
  | [], a, v => if v = Memory.unlisted then [] else [(a, v)]
  | (b, w) :: m, a, v =>
    if a < b then if v = Memory.unlisted then (b, w) :: m else (a, v) :: (b, w) :: m
    else if a = b then if v = Memory.unlisted then m else (a, v) :: m
    else (b, w) :: Memory.write m a v

/-- The canonical form: sub-addresses strictly rising, all below 256 (R50: 8 bits), no cell equal to what an unlisted
sub-address reads as. -/
abbrev Memory.wf (m : Memory) : Prop :=
  m.Pairwise (fun x y => x.1 < y.1) ∧ ∀ c ∈ m, c.1 < 256 ∧ c.2 ≠ Memory.unlisted

/-! ### Taking a model fault (R200, R209) -/

/-- Taking a fault, the one exception entry of the block: the reason with its info, `cc` and `mpc` are recorded and nothing else
changes: "faults are precise" (R200). No pc, status or mode is saved, and there is no vector (R209). -/
def raiseFault (r : FaultReason) (s : State) : State :=
  { s with fault := some { reason := r, cc := s.cc, mpc := s.mpc } }

/-- The return from a fault: "there is no return from a fault" (R210), so a recorded fault has no next state. -/
def returnFromFault (s : State) : Option State :=
  match s.fault with
  | some _ => none
  | none => some s

/-- An agent's step exists only while no fault is recorded (R200) and only under `HARDENED = false` (R206). -/
def whenRunning (s : State) (k : Host.Outcome State Fault Refusal) : Host.Outcome State Fault Refusal :=
  match s.fault with
  | some r => .fault (.halted r)
  | none => if s.cfg.hardened then .refused .hardenedVariant else k

/-! ### Register accesses (40_register_interface.md) -/

/-- "Every register access starts with `rxWindowOpen <- false`" (R110). -/
def closeWindow (s : State) : State := { s with rxWindowOpen := false }

/-- The value one host read of register `r` returns (R51; R101, R106, R107, R109). -/
def regValue (r : Reg) (s : State) : Half :=
  match r with
  | .cr => crWord s.cfg.binding s.cr
  | .sr1 => sr1Word s.cfg.binding s.sr1 (Config.freeWord s.draws)
  | .sr2 => Config.freeWord s.draws
  | .dr => if s.sr1.rxne then zext16 s.dr else zext16 (Config.freeByte s.draws)

/-- Bit `j` of the value one host read of register `r` returns. It is said apart from `regValue` so that a test of a named flag evaluates
although the rest of the word is a draw; Laws/Ops.lean proves the two agree. -/
def regBit (r : Reg) (s : State) (j : Fin 16) : Bool :=
  match r with
  | .cr => crBit s.cfg.binding s.cr j
  | .sr1 => sr1Bit s.cfg.binding s.sr1 (Config.freeWord s.draws) j
  | .sr2 => (Config.freeWord s.draws).getLsbD j.val
  | .dr => (regValue .dr s).getLsbD j.val

/-- The state after a read of CR: no effect but the window (R56, R101). -/
def afterReadCr (s : State) : State := closeWindow s

/-- The state after a read of SR1: a draw taken, the latches set from the flags it returned (R106). -/
def afterReadSr1 (s : State) : State :=
  { closeWindow s with draws := s.draws + 1, arm := armedBy s.sr1 }

/-- The state after a read of SR2: a draw taken; ADDR cleared when armed, which ends the address phase (R107). -/
def afterReadSr2 (s : State) : State :=
  if s.arm.addr && s.sr1.addr then
    { s with
      draws := s.draws + 1
      sr1 := { s.sr1 with addr := false }
      arm := { s.arm with addr := false }
      phase := if s.dir then .mrRx else .mtReady
      rxWindowOpen := s.dir }
  else { closeWindow s with draws := s.draws + 1 }

/-- The state after a read of DR: RXNE cleared, or a draw taken where RXNE was 0 (R109). -/
def afterReadDr (s : State) : State :=
  if s.sr1.rxne then { closeWindow s with sr1 := { s.sr1 with rxne := false } }
  else { closeWindow s with draws := s.draws + 1 }

/-- The state after one host read of register `r` (R51). -/
def afterRead (r : Reg) (s : State) : State :=
  match r with
  | .cr => afterReadCr s
  | .sr1 => afterReadSr1 s
  | .sr2 => afterReadSr2 s
  | .dr => afterReadDr s

/-- `CR.START <- 1` (R102). -/
def afterSetStart (s : State) : State := { closeWindow s with cr := { s.cr with start := true } }

/-- `CR.STOP <- 1` (R103). -/
def afterSetStop (s : State) : State := { closeWindow s with cr := { s.cr with stop := true } }

/-- `CR.ACK <- 1` (R104). -/
def afterSetAck (s : State) : State := { closeWindow s with cr := { s.cr with ack := true } }

/-- `CR.ACK <- 0` (R105). -/
def afterClrAck (s : State) : State := { closeWindow s with cr := { s.cr with ack := false } }

/-- The state after an admitted write of `b` to DR (R108). In the phases where no write is admitted nothing is written. -/
def afterWrDr (b : Byte) (s : State) : State :=
  match s.phase with
  | .msSb =>
    { closeWindow s with
      sr1 := { s.sr1 with sb := false }, arm := { s.arm with sb := false }, dr := b, phase := .msAddrTx b }
  | .mtReady => { closeWindow s with dr := b, phase := .mtTx b }
  | .mtBtf =>
    { closeWindow s with
      sr1 := { s.sr1 with btf := false }, arm := { s.arm with btf := false }, dr := b, phase := .mtTx b }
  | .msNacked => { closeWindow s with dr := b }
  | .idle | .msAddrTx _ | .msAddrAcked | .mtTx _ | .mrRx | .mrDone => s

/-- The admission table: does the access have a meaning in this state (R100)? -/
def admitted (a : Access) (s : State) : Bool :=
  match a with
  | .read _ => true
  | .setAck => true
  | .clrAck => true
  | .setStart => s.phase == .idle && !s.cr.stop
  | .setStop => (s.phase == .mtBtf || s.phase == .mrDone) && !s.cr.start
  | .wrDr _ =>
    match s.phase with
    | .msSb => s.sr1.sb && s.arm.sb
    | .mtReady => true
    | .mtBtf => s.sr1.btf && s.arm.btf
    | .msNacked => true
    | .idle | .msAddrTx _ | .msAddrAcked | .mtTx _ | .mrRx | .mrDone => false

/-- The state after an admitted access (R101–R109). -/
def afterAccess (a : Access) (s : State) : State :=
  match a with
  | .read r => afterRead r s
  | .setStart => afterSetStart s
  | .setStop => afterSetStop s
  | .setAck => afterSetAck s
  | .clrAck => afterClrAck s
  | .wrDr b => afterWrDr b s

/-- What a raw command appends to the log: the value of a read, nothing for a write (R22, R111). -/
def loggedBy (a : Access) (s : State) : List Half :=
  match a with
  | .read r => [regValue r s]
  | .setStart | .setStop | .setAck | .clrAck | .wrDr _ => []

/-- An access inside a host action: with `k` after it where it is admitted, and `UnmodelledAccess` recorded with no other
effect where it is not (R100, R200, R201). -/
def access (a : Access) (s : State) (k : State → State) : State :=
  if admitted a s then k (afterAccess a s) else raiseFault (.unmodelledAccess a s.phase) s

/-! ### Execution of a command (R111, R120, R151, R202) -/

/-- "A command of the other class faults" (R24). -/
def classAdmits (c : CmdClass) (s : State) : Bool := s.cls == none || s.cls == some c

/-- The transaction grammar: in which `txn` states a Txn command is legal (R150). Raw commands have no sequence check. -/
def legalIn (o : Op) (t : Txn) : Bool :=
  match o with
  | .beginTxn => t == .idle
  | .address => t == .started
  | .writeByte => t == .addrW || t == .wrote
  | .readByte => t == .addrR
  | .endTxn => t == .wrote || t == .read
  | .readReg => t == .idle
  | .writeReg => t == .idle
  | .rdCr | .setStart | .setStop | .setAck | .clrAck | .rdSr1 | .rdSr2 | .wrDr | .rdDr => true

/-- The completion of a raw command: log, class, command counter (R24, R111). -/
def completeRaw (logged : List Half) (s : State) : State :=
  { s with obs := s.obs ++ logged, cls := some .raw, cc := s.cc + 1 }

/-- A raw command is one host action: class check, admission, the access, the log, `cc` (R111, R202). -/
def rawCommand (o : Op) (a : Access) (s : State) : Host.Outcome State Fault Refusal :=
  whenRunning s <|
    if s.mpc ≠ 0 then .fault .noSuchAction
    else if classAdmits .raw s then .next (access a s (completeRaw (loggedBy a s)))
    else .next (raiseFault (.mixedCommandClass o.code) s)

/-- `C(v)` of R120: the condition on the word `v` the poll's read returns, tested at the binding's positions. -/
def Cond.holds (s : State) (c : Cond) : Bool :=
  match c with
  | .startSent => regBit c.reg s s.cfg.binding.sb
  | .addressAnswered => regBit c.reg s s.cfg.binding.addr || regBit c.reg s s.cfg.binding.af
  | .byteFinished => regBit c.reg s s.cfg.binding.btf
  | .byteReceived => regBit c.reg s s.cfg.binding.rxne
  | .stopSent => !regBit c.reg s s.cfg.binding.stop

/-- One numbered line of an action list (R14). -/
inductive Action where
  /-- One register access whose value, if it has one, is not used. -/
  | access (a : Access)
  /-- `poll P until C` (R120). -/
  | poll (c : Cond)
  /-- `tmp <- RD_DR` (R155). -/
  | readTmp
deriving DecidableEq, Repr

/-- The register access an action makes. -/
def Action.accessOf : Action → Access
  | .access a => a
  | .poll c => .read c.reg
  | .readTmp => .read .dr

/-- Is the action over once its access is made? A poll is over only where its condition holds of the word it read (R120). -/
def Action.over (s : State) : Action → Bool
  | .access _ => true
  | .poll c => c.holds s
  | .readTmp => true

/-- What the action keeps of the value it read: `tmp` for `tmp <- RD_DR`, nothing otherwise (R155, R171). -/
def Action.tmpAfter (s : State) : Action → Byte
  | .access _ => s.tmp
  | .poll _ => s.tmp
  | .readTmp => lowByte (regValue .dr s)

/-- The action counter and the completion: the next action, or after the last one the command's own completion, `cc <- cc + 1` and
`mpc <- 0` (R21, R151). -/
def advance (last : Bool) (complete : State → State) (s : State) : State :=
  if last then { complete s with cc := s.cc + 1, mpc := 0 } else { s with mpc := s.mpc + 1 }

/-- One host action of a Txn command: its access, then the counters where the action is over (R120, R151). The class is recorded
when the command starts (R24). -/
def performAction (act : Action) (last : Bool) (complete : State → State) (s : State) : State :=
  access act.accessOf s fun s' =>
    let s'' := { s' with tmp := act.tmpAfter s, cls := if s.mpc = 0 then some .txn else s'.cls }
    if act.over s then advance last complete s'' else s''

/-- One host action of a Txn command with action list `acts` (R151): at `mpc = 0` the class check and the sequence check come first, in
the order of R202, then the action `mpc` names. -/
def txnCommand (o : Op) (acts : List Action) (complete : State → State) (s : State) : Host.Outcome State Fault Refusal :=
  whenRunning s <|
    if s.mpc = 0 ∧ classAdmits .txn s = false then .next (raiseFault (.mixedCommandClass o.code) s)
    else if s.mpc = 0 ∧ legalIn o s.txn = false then .next (raiseFault (.sequenceViolation o.code s.txn) s)
    else
      match acts[s.mpc]? with
      | none => .fault .noSuchAction
      | some act => .next (performAction act (s.mpc + 1 == acts.length) complete s)

/-- "it updates `txn`" (R151). -/
def setTxn (t : Txn) (s : State) : State := { s with txn := t }

/-- "appends `zext_16(tmp)` to `obs`" (R151, R155, R171). -/
def logTmp (s : State) : State := { s with obs := s.obs ++ [zext16 s.tmp] }

/-! ### The environment's operations (70_reset_and_hazards.md) -/

/-- The external initialisation, "the interface boundary": PE, ACK and the un-modelled CR bits (R222). No step performs it (log 16). -/
def initialise (s : State) : State :=
  { s with cr := { s.cr with pe := true, ack := s.cfg.ackInit, other := s.cfg.crOther } }

/-- The post-initialisation state a program runs from: "the reset state of R46 except for" what the external initialisation writes (R222), with
what a launch supplies: the parameters, the command stream, the device bound to the bus, the reference device's register contents (R46: "launch
contents") and whether it is present (R141: configurable), and the schedule. -/
def launch (c : Config) (d : DeviceBinding) (regs : Memory) (present : Bool) (cmds : List Word) (sched : List Agent) : State :=
  initialise { State.reset with
    cfg := c, device := d, ref := { State.reset.ref with regs := regs, present := present }, cmds := cmds, sched := sched }

end Sys2Proof.Machine
end

