-- ==== Sys2Proof/Machine/Device.lean ====
section
/-! DEFINITION. The remote device: the oracle's queries (R140) and the reference device, a register file (R141–R145). Every query is
recorded in `trace`, on which the oracle's answers depend. -/

namespace Sys2Proof.Machine

/-- One more event on the bus (R140: "everything the device has been sent"). -/
def record (e : BusEvent) (s : State) : State := { s with trace := s.trace ++ [e] }

/-! ### The reference device on its own (R142–R145) -/

/-- `onStart()`: "sets `idx <- 0` and `sel <- false`" (R142). -/
def refOnStart (d : RefDevice) : RefDevice := { d with idx := 0, sel := false }

/-- `onStop()`: "sets `sel <- false`" (R142). -/
def refOnStop (d : RefDevice) : RefDevice := { d with sel := false }

/-- The answer to `ackAddr(a)`: "`present and a[7:1] = DEV_ADDR7`" (R143). -/
def refAckAddr (devAddr7 : BitVec 7) (a : Byte) (d : RefDevice) : Bool := d.present && addressBits a == devAddr7

/-- The reference device after `ackAddr(a)`: `sel` holds the answer (R143). -/
def refAfterAddr (devAddr7 : BitVec 7) (a : Byte) (d : RefDevice) : RefDevice := { d with sel := refAckAddr devAddr7 a d }

/-- The answer to `ackData(b)`: true exactly where this transaction addresses the device (R144). -/
def refAckData (d : RefDevice) : Bool := d.sel

/-- The reference device after `ackData(b)`: the first byte sets the pointer, a later one is written through it (R144). Without
`sel` nothing changes. -/
def refAfterData (b : Byte) (d : RefDevice) : RefDevice :=
  if d.sel then
    if d.idx = 0 then { d with ptr := b, idx := d.idx + 1 }
    else { d with regs := Memory.write d.regs d.ptr.toNat b, ptr := d.ptr + 1, idx := d.idx + 1 }
  else d

/-- The answer to `readByte()`: "`regs[ptr]`" (R145). -/
def refReadByte (d : RefDevice) : Byte := Memory.read d.regs d.ptr.toNat

/-- The reference device after `readByte()`: "`ptr <- ptr + 1` (mod 256)" (R145). -/
def refAfterRead (d : RefDevice) : RefDevice := { d with ptr := d.ptr + 1 }

/-! ### The device bound to the bus (R140, R141) -/

/-- The reference device's part of a query: nothing where the oracle is bound. -/
def onReference (f : RefDevice → RefDevice) (s : State) : State :=
  match s.device with
  | .oracle => s
  | .reference => { s with ref := f s.ref }

/-- `Device.onStart()` (R130, R140). -/
def deviceStart (s : State) : State := record .start (onReference refOnStart s)

/-- `Device.onStop()` (R134, R140). -/
def deviceStop (s : State) : State := record .stop (onReference refOnStop s)

/-- The answer to `Device.ackAddr(a)` (R131, R140). -/
def ackAddr (a : Byte) (s : State) : Bool :=
  match s.device with
  | .oracle => Config.oracleAckAddr s.trace a
  | .reference => refAckAddr s.cfg.devAddr7 a s.ref

/-- The device after `ackAddr(a)`. -/
def deviceAddressed (a : Byte) (s : State) : State :=
  record (.address a (ackAddr a s)) (onReference (refAfterAddr s.cfg.devAddr7 a) s)

/-- The answer to `Device.ackData(b)` (R132, R140). -/
def ackData (b : Byte) (s : State) : Bool :=
  match s.device with
  | .oracle => Config.oracleAckData s.trace b
  | .reference => refAckData s.ref

/-- The device after `ackData(b)`. -/
def deviceSent (b : Byte) (s : State) : State :=
  record (.data b (ackData b s)) (onReference (refAfterData b) s)

/-- The answer to `Device.readByte()` (R133, R140). -/
def readByte (s : State) : Byte :=
  match s.device with
  | .oracle => Config.oracleReadByte s.trace
  | .reference => refReadByte s.ref

/-- The device after `readByte()`. -/
def deviceRead (s : State) : State := record (.read (readByte s)) (onReference refAfterRead s)

end Sys2Proof.Machine
end

