-- ==== Sys2Proof/Machine/Controller.lean ====
section
/-! DEFINITION. The controller's five autonomous steps (R130–R134), each with its enabling condition. -/

namespace Sys2Proof.Machine

/-- The five steps of the controller (R130–R134). -/
inductive ControllerStep where
  | genStart
  | addrTx
  | byteTx
  | rxByte
  | genStop
deriving DecidableEq, Repr

/-- What every enabling condition shares: "`BUS_STUCK = false` and `fault = none`". -/
def busFree (s : State) : Bool := !s.cfg.busStuck && s.fault == none

/-- GenStart is enabled in IDLE with START and PE set (R130). -/
def genStartEnabled (s : State) : Bool := s.phase == .idle && s.cr.start && s.cr.pe && busFree s

/-- The address byte being shifted out, if there is one (R40). -/
def addressInFlight (s : State) : Option Byte :=
  match s.phase with
  | .msAddrTx a => some a
  | .idle | .msSb | .msAddrAcked | .mtReady | .mtTx _ | .mtBtf | .mrRx | .mrDone | .msNacked => none

/-- The data byte being shifted out, if there is one (R40). -/
def byteInFlight (s : State) : Option Byte :=
  match s.phase with
  | .mtTx b => some b
  | .idle | .msSb | .msAddrTx _ | .msAddrAcked | .mtReady | .mtBtf | .mrRx | .mrDone | .msNacked => none

/-- AddrTx is enabled in MS_ADDR_TX (R131). -/
def addrTxEnabled (s : State) : Bool := (addressInFlight s).isSome && busFree s

/-- ByteTx is enabled in MT_TX (R132). -/
def byteTxEnabled (s : State) : Bool := (byteInFlight s).isSome && busFree s

/-- RxByte is enabled in MR_RX with RXNE = 0, and under `HostFirst` only once the receive window is closed (R133, R43). -/
def rxByteEnabled (s : State) : Bool :=
  s.phase == .mrRx && !s.sr1.rxne && busFree s && (s.cfg.rxAckWindow == .free || !s.rxWindowOpen)

/-- GenStop is enabled in MT_BTF and MR_DONE with STOP set (R134). -/
def genStopEnabled (s : State) : Bool := s.cr.stop && (s.phase == .mtBtf || s.phase == .mrDone) && busFree s

/-- The enabling condition of each step. -/
def enabled (c : ControllerStep) (s : State) : Bool :=
  match c with
  | .genStart => genStartEnabled s
  | .addrTx => addrTxEnabled s
  | .byteTx => byteTxEnabled s
  | .rxByte => rxByteEnabled s
  | .genStop => genStopEnabled s

/-- GenStart: START cleared, SB set, BTF and all three latches cleared, the device told (R130). -/
def genStart (s : State) : State :=
  deviceStart
    { s with
      cr := { s.cr with start := false }
      sr1 := { s.sr1 with sb := true, btf := false }
      arm := disarmed
      phase := .msSb }

/-- AddrTx: the device's answer sets ADDR and the direction, or AF (R131). -/
def addrTx (a : Byte) (s : State) : State :=
  if ackAddr a s then
    { deviceAddressed a s with sr1 := { s.sr1 with addr := true }, dir := isRead a, phase := .msAddrAcked }
  else { deviceAddressed a s with sr1 := { s.sr1 with af := true }, phase := .msNacked }

/-- ByteTx: the device's answer sets BTF or AF (R132). -/
def byteTx (b : Byte) (s : State) : State :=
  if ackData b s then { deviceSent b s with sr1 := { s.sr1 with btf := true }, phase := .mtBtf }
  else { deviceSent b s with sr1 := { s.sr1 with af := true }, phase := .msNacked }

/-- RxByte: the byte is received and answered with NACK where ACK = 0; where ACK = 1 the step faults (R133), and as a fault
has "no other effect" (R200) nothing is received. DEDUCED (log 9). -/
def rxByte (s : State) : State :=
  if s.cr.ack then raiseFault (.rxByteAcked (readByte s)) s
  else { deviceRead s with dr := readByte s, sr1 := { s.sr1 with rxne := true }, phase := .mrDone }

/-- GenStop: STOP, BTF and its latch cleared, the bus idle, the device told (R134). -/
def genStop (s : State) : State :=
  deviceStop
    { s with
      cr := { s.cr with stop := false }
      sr1 := { s.sr1 with btf := false }
      arm := { s.arm with btf := false }
      dir := false
      phase := .idle }

/-- The state after a controller step that is enabled (R130–R134). -/
def runStep (c : ControllerStep) (s : State) : State :=
  match c with
  | .genStart => genStart s
  | .addrTx => match addressInFlight s with | some a => addrTx a s | none => s
  | .byteTx => match byteInFlight s with | some b => byteTx b s | none => s
  | .rxByte => rxByte s
  | .genStop => genStop s

/-- The step that is enabled, if any; "in every state at most one controller step is enabled" (R135). -/
def enabledStep (s : State) : Option ControllerStep :=
  [ControllerStep.genStart, .addrTx, .byteTx, .rxByte, .genStop].find? fun c => enabled c s

end Sys2Proof.Machine
end

