-- ==== Sys2Proof/Machine/BusPrimitives.lean ====
section
/-! DEFINITION. The meanings of the five bus primitives (42_bus_primitives.md). A meaning performs the ONE host action of the command that
`mpc` names (R14, R151; log 1). -/

namespace Sys2Proof.Machine

/-- The action list of BEGIN (R152). -/
def beginActions : List Action := [.access .setStart, .poll .startSent]

/-- The action list of ADDRESS a (R153). -/
def addressActions (a : Byte) : List Action :=
  [.access (.wrDr a), .poll .addressAnswered, .access (.read .sr1), .access (.read .sr2)]

/-- The action list of WRITE_BYTE b (R154). -/
def writeByteActions (b : Byte) : List Action := [.access (.wrDr b), .poll .byteFinished]

/-- The action list of READ_BYTE (R155). -/
def readByteActions : List Action := [.access .clrAck, .poll .byteReceived, .readTmp, .access .setAck]

/-- The action list of END (R156). -/
def endActions : List Action := [.access .setStop, .poll .stopSent]

/-- BEGIN (R152): `txn` becomes T_STARTED. -/
def execBegin (s : State) : Host.Outcome State Fault Refusal :=
  txnCommand .beginTxn beginActions (setTxn .started) s

/-- ADDRESS a (R153): `txn` follows `a[0]`, "even after a NACK". -/
def execAddress (a : Byte) (s : State) : Host.Outcome State Fault Refusal :=
  txnCommand .address (addressActions a) (setTxn (if isRead a then .addrR else .addrW)) s

/-- WRITE_BYTE b (R154): `txn` becomes T_WROTE. -/
def execWriteByte (b : Byte) (s : State) : Host.Outcome State Fault Refusal :=
  txnCommand .writeByte (writeByteActions b) (setTxn .wrote) s

/-- READ_BYTE (R155): the byte is logged and `txn` becomes T_READ. -/
def execReadByte (s : State) : Host.Outcome State Fault Refusal :=
  txnCommand .readByte readByteActions (fun t => logTmp (setTxn .read t)) s

/-- END (R156): `txn` becomes T_IDLE. -/
def execEnd (s : State) : Host.Outcome State Fault Refusal :=
  txnCommand .endTxn endActions (setTxn .idle) s

end Sys2Proof.Machine
end

