-- ==== Sys2Proof/Machine/RegisterAccess.lean ====
section
/-! DEFINITION. The meanings of the two register-access composers (43_register_access.md). -/

namespace Sys2Proof.Machine

/-- The twenty-two actions of READ_REG s, as R171 lists them. -/
def readRegActions (c : Config) (sub : Byte) : List Action :=
  [ -- transaction 1: set the device's pointer
    .access .setStart,
    .poll .startSent,
    .access (.wrDr (addrW c)),
    .poll .addressAnswered,
    .access (.read .sr1),
    .access (.read .sr2),
    .access (.wrDr sub),
    .poll .byteFinished,
    .access .setStop,
    .poll .stopSent,
    -- transaction 2: read one byte
    .access .setStart,
    .poll .startSent,
    .access (.wrDr (addrR c)),
    .poll .addressAnswered,
    .access (.read .sr1),
    .access (.read .sr2),
    .access .clrAck,
    .poll .byteReceived,
    .readTmp,
    .access .setAck,
    .access .setStop,
    .poll .stopSent ]

/-- The twelve actions of WRITE_REG s, v, as R172 lists them. -/
def writeRegActions (c : Config) (sub value : Byte) : List Action :=
  [ .access .setStart,
    .poll .startSent,
    .access (.wrDr (addrW c)),
    .poll .addressAnswered,
    .access (.read .sr1),
    .access (.read .sr2),
    .access (.wrDr sub),
    .poll .byteFinished,
    .access (.wrDr value),
    .poll .byteFinished,
    .access .setStop,
    .poll .stopSent ]

/-- READ_REG s (R171): the byte read is logged; `txn` stays T_IDLE (R170). -/
def execReadReg (sub : Byte) (s : State) : Host.Outcome State Fault Refusal :=
  txnCommand .readReg (readRegActions s.cfg sub) (fun t => logTmp (setTxn .idle t)) s

/-- WRITE_REG s, v (R172); `txn` stays T_IDLE (R170). -/
def execWriteReg (sub value : Byte) (s : State) : Host.Outcome State Fault Refusal :=
  txnCommand .writeReg (writeRegActions s.cfg sub value) (setTxn .idle) s

end Sys2Proof.Machine
end

