-- ==== Sys2Proof/Machine/RegisterInterface.lean ====
section
/-! DEFINITION. The meanings of the raw commands: one register access each (40_register_interface.md). -/

namespace Sys2Proof.Machine

/-- RD_CR (R101): the control register is logged. -/
def execRdCr (s : State) : Host.Outcome State Fault Refusal := rawCommand .rdCr (.read .cr) s

/-- SET_START (R102): a start condition is requested. -/
def execSetStart (s : State) : Host.Outcome State Fault Refusal := rawCommand .setStart .setStart s

/-- SET_STOP (R103): a stop condition is requested. -/
def execSetStop (s : State) : Host.Outcome State Fault Refusal := rawCommand .setStop .setStop s

/-- SET_ACK (R104): auto-acknowledge on. -/
def execSetAck (s : State) : Host.Outcome State Fault Refusal := rawCommand .setAck .setAck s

/-- CLR_ACK (R105): auto-acknowledge off. -/
def execClrAck (s : State) : Host.Outcome State Fault Refusal := rawCommand .clrAck .clrAck s

/-- RD_SR1 (R106): status register 1 is logged and the latches are set. -/
def execRdSr1 (s : State) : Host.Outcome State Fault Refusal := rawCommand .rdSr1 (.read .sr1) s

/-- RD_SR2 (R107): status register 2 is logged; ADDR is cleared where it was armed. -/
def execRdSr2 (s : State) : Host.Outcome State Fault Refusal := rawCommand .rdSr2 (.read .sr2) s

/-- WR_DR b (R108): the data register is written and a transfer starts. -/
def execWrDr (b : Byte) (s : State) : Host.Outcome State Fault Refusal := rawCommand .wrDr (.wrDr b) s

/-- RD_DR (R109): the data register is logged and RXNE cleared. -/
def execRdDr (s : State) : Host.Outcome State Fault Refusal := rawCommand .rdDr (.read .dr) s

end Sys2Proof.Machine
end

