-- ==== Sys2Proof/Machine/Dispatch.lean ====
section
/-! DEFINITION. One arm per command of the opcode map (R73). -/

namespace Sys2Proof.Machine

def exec (i : Instr) (s : State) : Host.Outcome State Fault Refusal :=
  match i with
  -- bus primitives (42_bus_primitives.md)
  | .beginTxn => Sys2Proof.Machine.execBegin s
  | .address a => Sys2Proof.Machine.execAddress a s
  | .writeByte b => Sys2Proof.Machine.execWriteByte b s
  | .readByte => Sys2Proof.Machine.execReadByte s
  | .endTxn => Sys2Proof.Machine.execEnd s
  -- composers (43_register_access.md)
  | .readReg sub => Sys2Proof.Machine.execReadReg sub s
  | .writeReg sub value => Sys2Proof.Machine.execWriteReg sub value s
  -- register interface (40_register_interface.md)
  | .rdCr => Sys2Proof.Machine.execRdCr s
  | .setStart => Sys2Proof.Machine.execSetStart s
  | .setStop => Sys2Proof.Machine.execSetStop s
  | .setAck => Sys2Proof.Machine.execSetAck s
  | .clrAck => Sys2Proof.Machine.execClrAck s
  | .rdSr1 => Sys2Proof.Machine.execRdSr1 s
  | .rdSr2 => Sys2Proof.Machine.execRdSr2 s
  | .wrDr b => Sys2Proof.Machine.execWrDr b s
  | .rdDr => Sys2Proof.Machine.execRdDr s

end Sys2Proof.Machine
end

