-- ==== Sys2Proof/Machine/HostAgent.lean ====
section
/-! DEFINITION. The two agents' steps and which of them moves: the host's fetch of the next command (R70, R74, R207), and the
interleaving with the controller (R14, R59). -/

namespace Sys2Proof.Machine

/-- The command word at `cc`, none at the end of the stream (R70). -/
def fetch (s : State) : Option Word := s.cmds[s.cc]?

/-- The host has a step while the stream has a command, and once more at its end where a transaction is open (R70, R207). -/
def hostEnabled (s : State) : Bool := s.fault == none && ((fetch s).isSome || s.txn != .idle)

/-- The controller has a step (R135). -/
def controllerEnabled (s : State) : Bool := (enabledStep s).isSome

/-- The agent the schedule asks for: its head, and past its end the controller first, which is the eager schedule (log 2). -/
def wanted (s : State) : Agent := s.sched.headD .controller

/-- The agent that moves: the one the schedule asks for, or the other where that one has no step (R14, R59; log 2). -/
def mover (s : State) : Option Agent :=
  match wanted s with
  | .host =>
    if hostEnabled s then some .host else if controllerEnabled s then some .controller else none
  | .controller =>
    if controllerEnabled s then some .controller else if hostEnabled s then some .host else none

/-- The rest of the schedule. -/
def popSched (s : State) : State := { s with sched := s.sched.tail }

/-- The host's action: one action of the command at `cc` (R70, R74). A word that does not decode is `IllegalCommand` (R201), the
end of the stream inside a transaction is `OpenTransactionAtEnd` (R207). -/
def hostAction (s : State) : Host.Outcome State Fault Refusal :=
  match fetch s with
  | some w =>
    match decode w with
    | .ok i => exec i s
    | .error _ => if s.mpc = 0 then .next (raiseFault (.illegalCommand w) s) else .fault .noSuchAction
  | none => if s.txn = .idle then .fault .runEnded else .next (raiseFault (.openTransactionAtEnd s.txn) s)

/-- The controller's step: the one that is enabled (R135). -/
def controllerAction (s : State) : Host.Outcome State Fault Refusal :=
  match enabledStep s with
  | some c => .next (runStep c s)
  | none => .fault .runEnded

/-- "A state is final when" the stream is used up, no fault is recorded, `txn` is T_IDLE and no controller step is enabled (R207). -/
def isFinal (s : State) : Bool :=
  s.cc == s.cmds.length && s.fault == none && s.txn == .idle && !controllerEnabled s

/-- The stream with `w` at index `k`; a stream shorter than `k` is filled with the all-zero word. -/
def placeWord : List Word → Nat → Word → List Word
  | [], 0, w => [w]
  | _ :: ws, 0, w => w :: ws
  | [], k + 1, w => 0 :: placeWord [] k w
  | x :: ws, k + 1, w => x :: placeWord ws k w

end Sys2Proof.Machine
end

