-- ==== Sys2Proof/Machine/Step.lean ====
section
/-! DEFINITION. One step of the machine: one atomic action of the host or of the controller (R14, R59). -/

namespace Sys2Proof.Machine

/-- One step: the agent that moves takes its action, and the schedule advances. Nothing moves once a fault is recorded (R200), under
`HARDENED` (R206), or where no agent has a step (R207). -/
def step (s : State) : Host.Outcome State Fault Refusal :=
  whenRunning s <|
    match mover s with
    | some .host => hostAction (popSched s)
    | some .controller => controllerAction (popSched s)
    | none => .fault .runEnded

/-- The state with the command word `w` (its low `nbits` bits) placed at `cc`, no command in progress and no fault recorded. -/
def placeCommand (s : State) (nbits w : Nat) : State :=
  { s with
    cmds := placeWord s.cmds s.cc (BitVec.ofNat 32 (w % 2 ^ nbits))
    mpc := 0
    fault := none }

/-- The state in which the next step starts the command word `w` (its low `nbits` bits): the word at `cc`, and the host put at the head of
the schedule where the schedule would let the controller move (log 17). -/
def State.withFetchWord (s : State) (nbits w : Nat) : State :=
  let t := placeCommand s nbits w
  if mover t = some .host then t else { t with sched := .host :: t.sched }

end Sys2Proof.Machine
end

