-- ==== Sys2Proof/Machine/Assembler.lean ====
section
/-! DEFINITION. The assembly syntax of R77 and the two pseudo-commands of R78, from a line of text to a command word. -/

namespace Sys2Proof.Machine

/-- Why a line of assembly is not a command (R77). -/
inductive AsmError where
  /-- No command and no pseudo-command has this name. -/
  | unknownMnemonic
  /-- An operand is no number in decimal or with the prefix `0x`. -/
  | badNumber
  /-- An operand is outside 0–255. -/
  | operandOutOfRange (n : Nat)
  /-- The command takes another number of operands. -/
  | operandCount (given : Nat)
deriving DecidableEq, Repr

/-- One command before its operands are bytes: a mnemonic and its numbers (R77). -/
structure AsmLine where
  name     : List Char
  operands : List Nat
deriving DecidableEq, Repr

/-- The white space between the parts of a line. DESIGN CHOICE, safe (log 29): space, tab and carriage return. -/
def isBlank (c : Char) : Bool := c == ' ' || c == '\t' || c == '\r'

/-- A text without the blanks at its two ends. -/
def trimBlanks (cs : List Char) : List Char := ((cs.dropWhile isBlank).reverse.dropWhile isBlank).reverse

/-- The part of a line before "`;` starts a comment" (R77). -/
def dropComment (cs : List Char) : List Char := cs.takeWhile fun c => c != ';'

/-- The value of a digit, hexadecimal digits in either case. -/
def digitValue (c : Char) : Option Nat :=
  if '0' ≤ c ∧ c ≤ '9' then some (c.toNat - '0'.toNat)
  else if 'a' ≤ c ∧ c ≤ 'f' then some (c.toNat - 'a'.toNat + 10)
  else if 'A' ≤ c ∧ c ≤ 'F' then some (c.toNat - 'A'.toNat + 10)
  else none

/-- The number the digits write after those that gave `acc`, none where a character is no digit of the base. -/
def digitsFrom (base : Nat) : Nat → List Char → Option Nat
  | acc, [] => some acc
  | acc, c :: cs =>
    match digitValue c with
    | some d => if d < base then digitsFrom base (acc * base + d) cs else none
    | none => none

/-- A number, "in decimal or with the prefix `0x` for hexadecimal" (R77). -/
def parseNumber : List Char → Option Nat
  | [] => none
  | ['0', 'x'] => none
  | '0' :: 'x' :: ds => digitsFrom 16 0 ds
  | c :: cs => digitsFrom 10 0 (c :: cs)

/-- The parts of a text between commas. -/
def splitCommas : List Char → List (List Char)
  | [] => [[]]
  | c :: cs =>
    if c = ',' then [] :: splitCommas cs
    else
      match splitCommas cs with
      | [] => [[c]]
      | p :: ps => (c :: p) :: ps

/-- The operands of a line, none where one is no number. -/
def parseOperands : List (List Char) → Option (List Nat)
  | [] => some []
  | p :: ps =>
    match parseNumber (trimBlanks p), parseOperands ps with
    | some n, some ns => some (n :: ns)
    | _, _ => none

/-- One line: nothing where it is blank, else "`MNEMONIC` or `MNEMONIC a` or `MNEMONIC a, b`" (R77). -/
def parseLine (line : List Char) : Except AsmError (Option AsmLine) :=
  let text := trimBlanks (dropComment line)
  let name := text.takeWhile fun c => !isBlank c
  let rest := trimBlanks (text.dropWhile fun c => !isBlank c)
  if text = [] then .ok none
  else if rest = [] then .ok (some { name := name, operands := [] })
  else
    match parseOperands (splitCommas rest) with
    | some ns => .ok (some { name := name, operands := ns })
    | none => .error .badNumber

/-- How many operands a command is spelled with (R73, R77). -/
def operandCount (o : Op) : Nat := if o.usesB then 2 else if o.usesA then 1 else 0

/-- The command of a row with its operands, each in 0–255 (R77). -/
def assembleOp (o : Op) (ns : List Nat) : Except AsmError Instr :=
  match ns.find? fun n => !operandInRange n with
  | some n => .error (.operandOutOfRange n)
  | none =>
    if ns.length = operandCount o then
      .ok (o.build (BitVec.ofNat 8 (ns.getD 0 0)) (BitVec.ofNat 8 (ns.getD 1 0)))
    else .error (.operandCount ns.length)

/-- The command a line spells. "Each pseudo-command expands to exactly one command": ADDR_W and ADDR_R are ADDRESS with the target
device's two address bytes (R78). -/
def assemble (c : Config) (l : AsmLine) : Except AsmError Instr :=
  if l.name = "ADDR_W".toList then
    if l.operands = [] then .ok (.address (addrW c)) else .error (.operandCount l.operands.length)
  else if l.name = "ADDR_R".toList then
    if l.operands = [] then .ok (.address (addrR c)) else .error (.operandCount l.operands.length)
  else
    match Op.all.find? fun o => o.mnemonic.toList == l.name with
    | some o => assembleOp o l.operands
    | none => .error .unknownMnemonic

/-- A program's text, one command a line, as its command stream (R70, R77). -/
def assembleLines (c : Config) : List (List Char) → Except AsmError (List Word)
  | [] => .ok []
  | line :: ls =>
    match parseLine line with
    | .error e => .error e
    | .ok none => assembleLines c ls
    | .ok (some l) =>
      match assemble c l, assembleLines c ls with
      | .ok i, .ok ws => .ok (encode i :: ws)
      | .error e, _ => .error e
      | _, .error e => .error e

end Sys2Proof.Machine
end

