-- ==== Sys2Proof/Machine/BusPort.lean ====
section
/-! DEFINITION. The controller's registers on a byte-addressed bus, for a binding that has one: the address map (R29, R57), whole aligned
words (R51, R53), and the read-modify-write a driver makes of CR (R39, R55). The commands do not go through this file, and a port access is no
host action of R14: it is the bare register access, made without the checks a step makes. DESIGN CHOICE, unsafe (log 35). -/

namespace Sys2Proof.Machine

/-- Why an access on the bus has no meaning. -/
inductive BusRefusal where
  /-- Not a whole aligned word at one of the four offsets (R53). -/
  | notARegister
  /-- A write to SR1 or SR2: "not expressible" (R51). -/
  | readOnly
  /-- A write of CR that is no read-modify-write of one modelled bit (R39, R54). -/
  | notOneBit
  /-- The access is not admitted in the current phase (R100). Reported to the caller, with no fault recorded. DESIGN CHOICE (log 35). -/
  | notAdmitted
deriving DecidableEq, Repr

/-- The address of a register: `I2C_BASE` plus its offset (R29, R57). Addresses have 32 bits and the sum wraps modulo 2^32.
DESIGN CHOICE, unsafe (log 36): the spec gives base, offsets and addresses no width. -/
def regAddress (c : Config) (r : Reg) : Word :=
  match r with
  | .cr => c.i2cBase + c.binding.crOffset
  | .dr => c.i2cBase + c.binding.drOffset
  | .sr1 => c.i2cBase + c.binding.sr1Offset
  | .sr2 => c.i2cBase + c.binding.sr2Offset

/-- A whole aligned word: four bytes at an address that is a multiple of four (R51, R53). -/
def wholeAlignedWord (addr : Word) (bytes : Nat) : Bool := bytes == 4 && addr.toNat % 4 == 0

/-- The register an access on the bus reaches: "any access that is not a whole aligned word at one of the four offsets" reaches none (R53),
whatever the base and the binding are. -/
def regAt (c : Config) (addr : Word) (bytes : Nat) : Option Reg :=
  if wholeAlignedWord addr bytes then [Reg.cr, .dr, .sr1, .sr2].find? fun r => addr == regAddress c r else none

/-- A read on the bus: the register's 16 bits with bits [31:16] 0, and its side effects (R51). It tests neither `fault` nor `HARDENED`.
DESIGN CHOICE, unsafe (log 35). -/
def busRead (addr : Word) (bytes : Nat) (s : State) : Except BusRefusal (Word × State) :=
  match regAt s.cfg addr bytes with
  | some r => .ok ((regValue r s).setWidth 32, afterRead r s)
  | none => .error .notARegister

/-- Which access a write of `v` to CR is: the one bit it sets or clears. Writing the word CR already holds changes no bit, as SET_ACK with
ACK = 1 and CLR_ACK with ACK = 0 do. DEDUCED, safe (log 28). -/
def crWriteAccess (v : Half) (s : State) : Option Access :=
  let b := s.cfg.binding
  if v = crWord b s.cr then some (if s.cr.ack then .setAck else .clrAck)
  else if v = crWord b { s.cr with ack := true } then some .setAck
  else if v = crWord b { s.cr with ack := false } then some .clrAck
  else if v = crWord b { s.cr with start := true } then some .setStart
  else if v = crWord b { s.cr with stop := true } then some .setStop
  else none

/-- The access a write of `v` to register `r` is: DR takes the low byte (R28, R54), CR one bit, SR1 and SR2 none. -/
def writeAccess (r : Reg) (v : Half) (s : State) : Except BusRefusal Access :=
  match r with
  | .dr => .ok (.wrDr (lowByte v))
  | .cr => match crWriteAccess v s with | some a => .ok a | none => .error .notOneBit
  | .sr1 => .error .readOnly
  | .sr2 => .error .readOnly

/-- A write on the bus, bits [31:16] ignored (R51). It tests neither `fault` nor `HARDENED`, and a write that is not admitted is refused as
`notAdmitted` and records no `UnmodelledAccess`. DESIGN CHOICE, unsafe (log 35). -/
def busWrite (addr : Word) (bytes : Nat) (v : Word) (s : State) : Except BusRefusal State :=
  match regAt s.cfg addr bytes with
  | none => .error .notARegister
  | some r =>
    match writeAccess r (v.setWidth 16) s with
    | .error e => .error e
    | .ok a => if admitted a s then .ok (afterAccess a s) else .error .notAdmitted

end Sys2Proof.Machine
end

