-- ==== Sys2Proof/Machine/Consumer.lean ====
section
/-! DEFINITION. The consumer's command sequences at the block's boundary and the byte assembly of an axis (44_consumer_sequences.md). They
"add nothing to the block's semantics" (R180); the floating-point scaling is not specified (R184). -/

namespace Sys2Proof.Machine

/-- `configure_sensor()`: three WRITE_REG commands, in this order (R181). -/
def configureSensor (c : Config) : List Instr :=
  [ .writeReg c.sensorMap.cfgA c.sensorConfig.vA,
    .writeReg c.sensorMap.cfgB c.sensorConfig.vB,
    .writeReg c.sensorMap.mode c.sensorConfig.vM ]

/-- `acquire_sample()`: low byte then high byte of each axis, in the order X, Y, Z (R183, D40). -/
def acquireSample (c : Config) : List Instr :=
  [ .readReg c.sensorMap.xLo, .readReg c.sensorMap.xHi,
    .readReg c.sensorMap.yLo, .readReg c.sensorMap.yHi,
    .readReg c.sensorMap.zLo, .readReg c.sensorMap.zHi ]

/-- The commands `calibrate_sensor()` issues: the alternate register A, gain and mode, then one acquisition (R185). The order of the three
writes is that of R185's sentence. -/
def calibrateSensor (c : Config) : List Instr :=
  [ .writeReg c.sensorMap.cfgA c.sensorConfig.calA,
    .writeReg c.sensorMap.cfgB c.sensorConfig.calB,
    .writeReg c.sensorMap.mode c.sensorConfig.calM ] ++ acquireSample c

/-- "the manufacturer's documented reference counts (766 for X/Y, 713 for Z)" (R185). -/
def referenceCounts : Int × Int × Int := (766, 766, 713)

/-- `raw : Int16 = toSigned16( zext_16(lo) | (zext_16(hi) << 8) )` (R182). -/
def rawAxis (lo hi : Byte) : Int := (zext16 lo ||| (zext16 hi <<< 8)).toInt

/-- The raw triple of the six values an acquisition appends to the log (R183). -/
def rawTriple : List Half → Option (Int × Int × Int)
  | [xl, xh, yl, yh, zl, zh] =>
    some (rawAxis (lowByte xl) (lowByte xh), rawAxis (lowByte yl) (lowByte yh), rawAxis (lowByte zl) (lowByte zh))
  | _ => none

end Sys2Proof.Machine
end

