-- ==== Sys2Proof/Safety.lean ====
section
/-! DEFINITION. What the claims say of runs: runs themselves, the clean entry of R222, the invariant every step keeps, and the protocol points
of a Txn-class program (R150, R157, R158, R233). -/

namespace Sys2Proof.Machine

/-- `t` is reached from `s` in exactly `n` steps. -/
def runsTo : Nat → State → State → Prop
  | 0, s, t => t = s
  | n + 1, s, t => ∃ u, step s = .next u ∧ runsTo n u t

/-- `t` is reached from `s`. -/
def reaches (s t : State) : Prop := ∃ n, runsTo n s t

/-- The premises of R222 and R206 under which an agent may step: no fault recorded, `HARDENED = false`. -/
def running (s : State) : Bool := s.fault == none && !s.cfg.hardened

/-- The command at `cc`, where there is one and it decodes (R70, R74). -/
def currentCommand (s : State) : Option Instr :=
  match fetch s with
  | some w => match decode w with | .ok i => some i | .error _ => none
  | none => none

/-- The number of host actions of a command: the length of its action list, one for a raw command (R111, R152–R156, R171, R172). -/
def actionCount : Instr → Nat
  | .beginTxn => 2
  | .address _ => 4
  | .writeByte _ => 2
  | .readByte => 4
  | .endTxn => 2
  | .readReg _ => 22
  | .writeReg _ _ => 12
  | .rdCr | .setStart | .setStop | .setAck | .clrAck | .rdSr1 | .rdSr2 | .wrDr _ | .rdDr => 1

/-- What ties flags, requests, latches, direction and window to the phase, in programs of either class; the device's memory is
canonical and the counters lie inside the stream (R21, R30–R43). -/
structure Inv (s : State) : Prop where
  /-- SB is 1 exactly in MS_SB (R30, R130). -/
  sb_phase : s.sr1.sb = true ↔ s.phase = .msSb
  /-- ADDR is 1 exactly in MS_ADDR_ACKED (R31, R40). -/
  addr_phase : s.sr1.addr = true ↔ s.phase = .msAddrAcked
  /-- BTF is 1 exactly in MT_BTF (R32, R40). -/
  btf_phase : s.sr1.btf = true ↔ s.phase = .mtBtf
  /-- AF is 1 exactly in MS_NACKED (R34, R40). -/
  af_phase : s.sr1.af = true ↔ s.phase = .msNacked
  /-- A start request is pending only in IDLE (R35, R102). -/
  start_idle : s.cr.start = true → s.phase = .idle
  /-- A stop request is pending only while the last byte is sent or after it (R36, R103, R134). -/
  stop_phase : s.cr.stop = true →
    s.phase = .mtBtf ∨ s.phase = .mrDone ∨ (byteInFlight s).isSome = true ∨ s.phase = .msNacked
  /-- A latch is armed only while its flag is 1 (R42). -/
  arm_sb : s.arm.sb = true → s.sr1.sb = true
  arm_addr : s.arm.addr = true → s.sr1.addr = true
  arm_btf : s.arm.btf = true → s.sr1.btf = true
  /-- The receive window is open only in a read transaction, and no stop is then requested (R43). -/
  window_phase : s.rxWindowOpen = true → (s.phase = .mrRx ∨ s.phase = .mrDone) ∧ s.cr.stop = false
  /-- The direction is read while receiving, and only from the acknowledged address on (R41). -/
  dir_read : s.phase = .mrRx ∨ s.phase = .mrDone → s.dir = true
  dir_phase : s.dir = true → s.phase = .msAddrAcked ∨ s.phase = .mrRx ∨ s.phase = .mrDone
  /-- The reference device's registers are in canonical form (R141). -/
  memory : Memory.wf s.ref.regs
  /-- `cc` never runs past the stream (R21). -/
  counter : s.cc ≤ s.cmds.length
  /-- `mpc` names an action of the current command (R21). -/
  action : s.mpc = 0 ∨ ∃ i, currentCommand s = some i ∧ s.mpc < actionCount i

/-! ### The effects of the accesses and of the action lines, with the flags by name

The meanings test words and go through shared operations. What follows is R101–R109 and R120 once more, as the rules read, so that
claims can name an effect. -/

/-- After a read of SR1 (R106): window closed, a draw taken, the latches hold the flags. -/
def sr1Read (s : State) : State :=
  { s with
    rxWindowOpen := false
    draws := s.draws + 1
    arm := { sb := s.sr1.sb, addr := s.sr1.addr, btf := s.sr1.btf } }

/-- After a read of SR2 (R107). -/
def sr2Read (s : State) : State :=
  if s.arm.addr = true ∧ s.sr1.addr = true then
    if s.dir = true then
      { s with
        rxWindowOpen := true, draws := s.draws + 1, phase := .mrRx
        sr1 := { s.sr1 with addr := false }, arm := { s.arm with addr := false } }
    else
      { s with
        rxWindowOpen := false, draws := s.draws + 1, phase := .mtReady
        sr1 := { s.sr1 with addr := false }, arm := { s.arm with addr := false } }
  else { s with rxWindowOpen := false, draws := s.draws + 1 }

/-- The byte a read of DR gives (R109): DR where RXNE is 1, any byte where it is 0. -/
def drByte (s : State) : Byte := if s.sr1.rxne = true then s.dr else Config.freeByte s.draws

/-- After a read of DR (R109). -/
def drRead (s : State) : State :=
  if s.sr1.rxne = true then { s with rxWindowOpen := false, sr1 := { s.sr1 with rxne := false } }
  else { s with rxWindowOpen := false, draws := s.draws + 1 }

/-- After a write of `b` to DR, none where it is not admitted (R108). -/
def drWrite (b : Byte) (s : State) : Option State :=
  if s.phase = .msSb ∧ s.sr1.sb = true ∧ s.arm.sb = true then
    some { s with
      rxWindowOpen := false, dr := b, phase := .msAddrTx b
      sr1 := { s.sr1 with sb := false }, arm := { s.arm with sb := false } }
  else if s.phase = .mtReady then some { s with rxWindowOpen := false, dr := b, phase := .mtTx b }
  else if s.phase = .mtBtf ∧ s.sr1.btf = true ∧ s.arm.btf = true then
    some { s with
      rxWindowOpen := false, dr := b, phase := .mtTx b
      sr1 := { s.sr1 with btf := false }, arm := { s.arm with btf := false } }
  else if s.phase = .msNacked then some { s with rxWindowOpen := false, dr := b }
  else none

/-- After SET_START, none where it is not admitted (R102). -/
def startWrite (s : State) : Option State :=
  if s.phase = .idle ∧ s.cr.stop = false then some { s with rxWindowOpen := false, cr := { s.cr with start := true } } else none

/-- After SET_STOP, none where it is not admitted (R103). -/
def stopWrite (s : State) : Option State :=
  if (s.phase = .mtBtf ∨ s.phase = .mrDone) ∧ s.cr.start = false then
    some { s with rxWindowOpen := false, cr := { s.cr with stop := true } }
  else none

/-- After SET_ACK or CLR_ACK (R104, R105). -/
def ackWrite (on : Bool) (s : State) : State := { s with rxWindowOpen := false, cr := { s.cr with ack := on } }

/-- After one access, none where it is not admitted (R100–R109). -/
def accessEffect (a : Access) (s : State) : Option State :=
  match a with
  | .read .cr => some { s with rxWindowOpen := false }
  | .read .sr1 => some (sr1Read s)
  | .read .sr2 => some (sr2Read s)
  | .read .dr => some (drRead s)
  | .setStart => startWrite s
  | .setStop => stopWrite s
  | .setAck => some (ackWrite true s)
  | .clrAck => some (ackWrite false s)
  | .wrDr b => drWrite b s

/-- What a poll waits for, by the name of the flag (R152–R156). -/
def condMet (c : Cond) (s : State) : Bool :=
  match c with
  | .startSent => s.sr1.sb
  | .addressAnswered => s.sr1.addr || s.sr1.af
  | .byteFinished => s.sr1.btf
  | .byteReceived => s.sr1.rxne
  | .stopSent => !s.cr.stop

/-- After one line of an action list, and whether the line is over (R120): none where its access is not admitted. -/
def lineEffect (act : Action) (s : State) : Option (State × Bool) :=
  match act with
  | .access a => (accessEffect a s).map fun t => (t, true)
  | .poll .stopSent => some ({ s with rxWindowOpen := false }, condMet .stopSent s)
  | .poll c => some (sr1Read s, condMet c s)
  | .readTmp => some ({ drRead s with tmp := drByte s }, true)

/-- The action list of each command; a raw command is one access (R111, R152–R156, R171, R172). -/
def actionsOf (c : Config) : Instr → List Action
  | .beginTxn => beginActions
  | .address a => addressActions a
  | .writeByte b => writeByteActions b
  | .readByte => readByteActions
  | .endTxn => endActions
  | .readReg sub => readRegActions c sub
  | .writeReg sub value => writeRegActions c sub value
  | .rdCr => [.access (.read .cr)]
  | .setStart => [.access .setStart]
  | .setStop => [.access .setStop]
  | .setAck => [.access .setAck]
  | .clrAck => [.access .clrAck]
  | .rdSr1 => [.access (.read .sr1)]
  | .rdSr2 => [.access (.read .sr2)]
  | .wrDr b => [.access (.wrDr b)]
  | .rdDr => [.access (.read .dr)]

/-- The state with a fault of this reason recorded at its place and nothing else changed (R200). -/
def faulted (r : FaultReason) (s : State) : State := { s with fault := some { reason := r, cc := s.cc, mpc := s.mpc } }

/-! ### Protocol points of a Txn-class program -/

/-- The places of a transaction between two host actions of a Txn-class program (R150, R157, R158). -/
inductive Point where
  /-- No transaction (T_IDLE). -/
  | idle
  /-- SET_START done, polling SB. -/
  | startAsked
  /-- SB seen (T_STARTED). -/
  | started
  /-- Address byte written, polling ADDR or AF. -/
  | addressed (rd : Bool)
  /-- The answer seen by an SR1 read, SR2 not yet read. -/
  | answered (rd : Bool)
  /-- Address phase of a write over (T_ADDR_W). -/
  | sendReady
  /-- Address phase of a read over (T_ADDR_R). -/
  | recvReady
  /-- Data byte written, polling BTF. -/
  | byteSent
  /-- BTF seen (T_WROTE). -/
  | wrote
  /-- ACK cleared, polling RXNE. -/
  | ackOff
  /-- RXNE seen, DR not yet read. -/
  | rxSeen
  /-- DR read, ACK not yet restored. -/
  | rxTaken
  /-- The byte is read (T_READ). -/
  | readDone
  /-- SET_STOP done, polling STOP. -/
  | stopAsked
deriving DecidableEq, Repr

/-- The point a grammar state stands for (R44, R150). -/
def pointOfTxn : Txn → Point
  | .idle => .idle
  | .started => .started
  | .addrW => .sendReady
  | .addrR => .recvReady
  | .wrote => .wrote
  | .read => .readDone

/-- The point before the action `k` of a Txn command, for `k ≥ 1`, read off the action lists of R152–R156, R171 and R172. -/
def pointAt (i : Instr) (k : Nat) : Option Point :=
  match i with
  | .beginTxn => [Point.idle, .startAsked][k]?
  | .address a => [Point.started, .addressed (isRead a), .answered (isRead a), .answered (isRead a)][k]?
  | .writeByte _ => [Point.sendReady, .byteSent][k]?
  | .readByte => [Point.recvReady, .ackOff, .rxSeen, .rxTaken][k]?
  | .endTxn => [Point.wrote, .stopAsked][k]?
  | .readReg _ =>
    [Point.idle, .startAsked, .started, .addressed false, .answered false, .answered false, .sendReady, .byteSent, .wrote,
     .stopAsked, .idle, .startAsked, .started, .addressed true, .answered true, .answered true, .recvReady, .ackOff, .rxSeen,
     .rxTaken, .readDone, .stopAsked][k]?
  | .writeReg _ _ =>
    [Point.idle, .startAsked, .started, .addressed false, .answered false, .answered false, .sendReady, .byteSent, .wrote,
     .byteSent, .wrote, .stopAsked][k]?
  | .rdCr | .setStart | .setStop | .setAck | .clrAck | .rdSr1 | .rdSr2 | .wrDr _ | .rdDr => none

/-- No start and no stop is requested. -/
def noRequest (s : State) : Bool := !s.cr.start && !s.cr.stop

/-- The bus is free: phase IDLE, every flag 0, nothing requested, nothing armed, write direction, window closed (R222, clean entry). -/
def busIdle (s : State) : Bool :=
  decide (s.phase = .idle ∧ s.sr1 = noFlags ∧ s.arm = disarmed ∧ s.dir = false ∧ s.rxWindowOpen = false) && noRequest s

/-- The device did not acknowledge: phase MS_NACKED, AF alone set (R131, R132). -/
def nacked (s : State) : Bool :=
  decide (s.phase = .msNacked ∧ s.sr1 = { noFlags with af := true } ∧ s.arm = disarmed ∧ s.dir = false ∧ s.rxWindowOpen = false)

/-- What the controller may look like at each point, whatever the device answered and whichever controller steps were taken (R157,
R158, R204). -/
def Point.holds (p : Point) (s : State) : Bool :=
  match p with
  | .idle => busIdle s
  | .startAsked =>
    decide (s.cr.stop = false ∧ s.arm = disarmed ∧ s.dir = false ∧ s.rxWindowOpen = false ∧
      (s.phase = .idle ∧ s.sr1 = noFlags ∧ s.cr.start = true ∨
       s.phase = .msSb ∧ s.sr1 = { noFlags with sb := true } ∧ s.cr.start = false))
  | .started =>
    decide (noRequest s = true ∧ s.phase = .msSb ∧ s.sr1 = { noFlags with sb := true } ∧
      s.arm = { disarmed with sb := true } ∧ s.dir = false ∧ s.rxWindowOpen = false)
  | .addressed rd =>
    decide (noRequest s = true ∧
      ((addressInFlight s).map isRead = some rd ∧ s.sr1 = noFlags ∧ s.arm = disarmed ∧ s.dir = false ∧ s.rxWindowOpen = false ∨
       s.phase = .msAddrAcked ∧ s.sr1 = { noFlags with addr := true } ∧ s.arm = disarmed ∧ s.dir = rd ∧ s.rxWindowOpen = false ∨
       nacked s = true))
  | .answered rd =>
    decide (noRequest s = true ∧
      (s.phase = .msAddrAcked ∧ s.sr1 = { noFlags with addr := true } ∧ s.arm = { disarmed with addr := true } ∧ s.dir = rd ∧
        s.rxWindowOpen = false ∨
       nacked s = true))
  | .sendReady =>
    decide (noRequest s = true ∧
      (s.phase = .mtReady ∧ s.sr1 = noFlags ∧ s.arm = disarmed ∧ s.dir = false ∧ s.rxWindowOpen = false ∨ nacked s = true))
  | .recvReady =>
    decide (noRequest s = true ∧
      (s.phase = .mrRx ∧ s.sr1 = noFlags ∧ s.arm = disarmed ∧ s.dir = true ∧ s.rxWindowOpen = true ∨
       s.cfg.rxAckWindow = .free ∧ s.phase = .mrDone ∧ s.sr1 = { noFlags with rxne := true } ∧ s.arm = disarmed ∧ s.dir = true ∨
       nacked s = true))
  | .byteSent =>
    decide (noRequest s = true ∧
      ((byteInFlight s).isSome = true ∧ s.sr1 = noFlags ∧ s.arm = disarmed ∧ s.dir = false ∧ s.rxWindowOpen = false ∨
       s.phase = .mtBtf ∧ s.sr1 = { noFlags with btf := true } ∧ s.arm = disarmed ∧ s.dir = false ∧ s.rxWindowOpen = false ∨
       nacked s = true))
  | .wrote =>
    decide (noRequest s = true ∧ s.phase = .mtBtf ∧ s.sr1 = { noFlags with btf := true } ∧
      s.arm = { disarmed with btf := true } ∧ s.dir = false ∧ s.rxWindowOpen = false)
  | .ackOff =>
    decide (noRequest s = true ∧ s.cr.ack = false ∧
      (s.phase = .mrRx ∧ s.sr1 = noFlags ∧ s.arm = disarmed ∧ s.dir = true ∧ s.rxWindowOpen = false ∨
       s.phase = .mrDone ∧ s.sr1 = { noFlags with rxne := true } ∧ s.arm = disarmed ∧ s.dir = true ∧ s.rxWindowOpen = false ∨
       nacked s = true))
  | .rxSeen =>
    decide (noRequest s = true ∧ s.cr.ack = false ∧ s.phase = .mrDone ∧ s.sr1 = { noFlags with rxne := true } ∧
      s.arm = disarmed ∧ s.dir = true ∧ s.rxWindowOpen = false)
  | .rxTaken =>
    decide (noRequest s = true ∧ s.cr.ack = false ∧ s.phase = .mrDone ∧ s.sr1 = noFlags ∧ s.arm = disarmed ∧ s.dir = true ∧
      s.rxWindowOpen = false)
  | .readDone =>
    decide (noRequest s = true ∧ s.cr.ack = true ∧ s.phase = .mrDone ∧ s.sr1 = noFlags ∧ s.arm = disarmed ∧ s.dir = true ∧
      s.rxWindowOpen = false)
  | .stopAsked =>
    decide (s.cr.start = false ∧
      (s.cr.stop = true ∧ s.phase = .mtBtf ∧ s.sr1 = { noFlags with btf := true } ∧ s.arm = { disarmed with btf := true } ∧
        s.dir = false ∧ s.rxWindowOpen = false ∨
       s.cr.stop = true ∧ s.phase = .mrDone ∧ s.sr1 = noFlags ∧ s.arm = disarmed ∧ s.dir = true ∧ s.rxWindowOpen = false ∨
       busIdle s = true))

/-- The state stands where its command, its action index and its grammar state say (R150, R151, R175: a composer keeps T_IDLE). -/
def atPoint (s : State) : Bool :=
  if s.mpc = 0 then (pointOfTxn s.txn).holds s
  else
    match currentCommand s with
    | some i =>
      legalIn i.op s.txn && (match pointAt i s.mpc with | some p => p.holds s | none => false)
    | none => false

/-- The faults a Txn-class program may record: never `UnmodelledAccess` (R157, R158), and `RxByteAcked` only under `Free` (R133,
R231). -/
def txnFaultAllowed (s : State) : Bool :=
  match s.fault with
  | none => true
  | some r =>
    match r.reason with
    | .unmodelledAccess _ _ => false
    | .rxByteAcked _ => s.cfg.rxAckWindow == .free
    | .illegalCommand _ | .mixedCommandClass _ | .sequenceViolation _ _ | .openTransactionAtEnd _ => true

/-- The protocol invariant of Txn-class programs. Before the first command the bus is free; from then on the state stands at its
protocol point until a fault is recorded; a Raw-class program is not constrained. -/
def TxnInv (s : State) : Bool :=
  s.cfg.binding.wellFormed &&
    match s.cls with
    | some .raw => true
    | none => s.mpc == 0 && s.txn == .idle && busIdle s
    | some .txn => txnFaultAllowed s && (s.fault.isSome || atPoint s)

/-- "The shared launch premise of every claim, clean entry" (R222). -/
def cleanEntry (s : State) : Bool :=
  decide (s.phase = .idle ∧ s.sr1 = noFlags ∧ s.cr.start = false ∧ s.cr.stop = false ∧ s.arm = disarmed ∧
    s.rxWindowOpen = false ∧ s.txn = .idle ∧ s.cc = 0 ∧ s.mpc = 0 ∧ s.obs = [] ∧ s.fault = none ∧ s.cls = none ∧
    s.cfg.busStuck = false ∧ s.cfg.hardened = false)

/-- A Txn command is about to start between two transactions, on a machine whose bus works (R222), with the reference device present (R141)
and the host ahead of the received byte (`HostFirst`, R10). -/
def readyForComposer (s : State) : Bool :=
  running s && !s.cfg.busStuck && s.cfg.binding.wellFormed && s.cfg.rxAckWindow == .hostFirst && s.cr.pe &&
    s.device == .reference && s.ref.present && busIdle s && s.mpc == 0 && s.txn == .idle && s.cls != some .raw

end Sys2Proof.Machine
end

