-- ==== Sys2Proof/Certificates/Slice0/Obligations.lean ====
section
/-! DEFINITION. The statements for the provers, one `def Obligations.<Name> : Prop` each. They quantify over every state, hence over every
value of the launch parameters, of the draws, of the device and of the schedule. A next state written as a record update says also what
does not change: every field it does not name. -/

open Sys2Proof Sys2Proof.Machine

/-! ### Encoding -/

/-- R71, R73, R74: the decoder reads exactly the words the encoder writes, each as the command it encodes. -/
def Obligations.DecodeEncodeAgree : Prop :=
  ∀ (w : Word) (i : Instr), decode w = .ok i ↔ encode i = w

/-- R73: the opcode map, row by row: mnemonic, OP, class, use of A, use of B. -/
def Obligations.OpcodeMapIsTheTable : Prop :=
  Op.all.map (fun o => (o.mnemonic, o.code, o.cls, o.usesA, o.usesB)) =
    [ ("BEGIN", 0x01, .txn, false, false), ("ADDRESS", 0x02, .txn, true, false), ("WRITE_BYTE", 0x03, .txn, true, false),
      ("READ_BYTE", 0x04, .txn, false, false), ("END", 0x05, .txn, false, false), ("READ_REG", 0x10, .txn, true, false),
      ("WRITE_REG", 0x11, .txn, true, true), ("RD_CR", 0x20, .raw, false, false), ("SET_START", 0x21, .raw, false, false),
      ("SET_STOP", 0x22, .raw, false, false), ("SET_ACK", 0x23, .raw, false, false), ("CLR_ACK", 0x24, .raw, false, false),
      ("RD_SR1", 0x25, .raw, false, false), ("RD_SR2", 0x26, .raw, false, false), ("WR_DR", 0x27, .raw, true, false),
      ("RD_DR", 0x28, .raw, false, false) ]

/-- R74: a word decodes exactly under the four conditions, to the row of its OP with its operand bytes; executing any other word raises
`IllegalCommand`. -/
def Obligations.DecodingIsTheFourConditions : Prop :=
  ∀ w : Word,
    ((∃ i, decode w = .ok i) ↔
      ∃ o : Op, o.code = w.extractLsb' 0 8 ∧ w.extractLsb' 24 8 = 0#8 ∧ (w.extractLsb' 16 8 = 0#8 ∨ o = .writeReg) ∧
        (w.extractLsb' 8 8 = 0#8 ∨ o ∈ [Op.address, .writeByte, .readReg, .writeReg, .wrDr])) ∧
    (∀ i, decode w = .ok i →
      i.op.code = w.extractLsb' 0 8 ∧ i.fieldA = w.extractLsb' 8 8 ∧ i.fieldB = w.extractLsb' 16 8) ∧
    (∀ s, (∀ i, decode w ≠ .ok i) → running s = true → mover s = some .host → s.mpc = 0 → fetch s = some w →
      step s = .next { s with
        sched := s.sched.tail, fault := some { reason := .illegalCommand w, cc := s.cc, mpc := 0 } })

/-- R75: every reserved OP, every word with `Z ≠ 0` and every word with an operand byte its opcode does not use raises `IllegalCommand`; the
all-zero word is one of them. -/
def Obligations.ReservedEncodingsAreIllegal : Prop :=
  (∀ (w : Word) (s : State),
    (let op := (w.extractLsb' 0 8).toNat
     op = 0 ∨ (0x06 ≤ op ∧ op ≤ 0x0F) ∨ (0x12 ≤ op ∧ op ≤ 0x1F) ∨ 0x29 ≤ op) ∨
    w.extractLsb' 24 8 ≠ 0#8 ∨
    (∃ o : Op, o.code = w.extractLsb' 0 8 ∧
      (o.usesA = false ∧ w.extractLsb' 8 8 ≠ 0#8 ∨ o.usesB = false ∧ w.extractLsb' 16 8 ≠ 0#8)) →
    running s = true → mover s = some .host → s.mpc = 0 → fetch s = some w →
    step s = .next { s with
      sched := s.sched.tail, fault := some { reason := .illegalCommand w, cc := s.cc, mpc := 0 } }) ∧
  decode 0 = .error (.reservedOpcode 0)

/-- R79: the worked encodings, row by row; the last two words are illegal. -/
def Obligations.WorkedEncodings : Prop :=
  decode 0x00000001 = .ok .beginTxn ∧
  decode 0x00003C02 = .ok (.address 0x3C) ∧
  decode 0x00003D02 = .ok (.address 0x3D) ∧
  decode 0x00000203 = .ok (.writeByte 0x02) ∧
  decode 0x00000004 = .ok .readByte ∧
  decode 0x00000005 = .ok .endTxn ∧
  decode 0x00000310 = .ok (.readReg 0x03) ∧
  decode 0x00000211 = .ok (.writeReg 0x02 0x00) ∧
  decode 0x00700011 = .ok (.writeReg 0x00 0x70) ∧
  decode 0x00000025 = .ok .rdSr1 ∧
  decode 0x0000FF27 = .ok (.wrDr 0xFF) ∧
  decode 0x01000001 = .error (.reservedField 0x01) ∧
  decode 0x00000101 = .error (.unusedOperandA 0x01)

/-- R52, R76: a command is one word of four bytes, byte 0 its bits [7:0]; the decoder takes exactly those four and leaves the rest, and
refuses fewer; the table's numbering of the bits is the word's. That bytes 1 to 3 follow in rising order of the bits is the model's reading
(log 19): R52 fixes byte 0 only. -/
def Obligations.BytesDecodeToTheirCommand : Prop :=
  (∀ w : Word, bytesOfWord w = [w.extractLsb' 0 8, w.extractLsb' 8 8, w.extractLsb' 16 8, w.extractLsb' 24 8]) ∧
  (∀ (i : Instr) (rest : List Byte), decodeBytes (bytesOfWord (encode i) ++ rest) = .ok (i, rest)) ∧
  (∀ bs : List Byte, bs.length < 4 → decodeBytes bs = .error .truncated) ∧
  (∀ i : Instr, decodeTableWord 32 (encode i).toNat = some i)

/-- R72: the composers' address bytes: bits [7:1] are DEV_ADDR7, bit 0 is the direction, and nothing else differs. -/
def Obligations.AddressBytesCarryDevAddr7 : Prop :=
  ∀ c : Config,
    (addrW c).extractLsb' 1 7 = c.devAddr7 ∧ (addrR c).extractLsb' 1 7 = c.devAddr7 ∧
    (addrW c).getLsbD 0 = false ∧ (addrR c).getLsbD 0 = true ∧ addrR c = addrW c ||| 1#8

/-- R77, R78: a mnemonic with the operands its row takes, each 0–255, assembles to the row's command; an operand outside is refused; ADDR_W
and ADDR_R are ADDRESS with the device's two address bytes. -/
def Obligations.AssemblerSpellsEveryCommand : Prop :=
  ∀ c : Config,
    (∀ (o : Op) (ns : List Nat), ns.length = (if o.usesB then 2 else if o.usesA then 1 else 0) →
      ((∀ n ∈ ns, n < 256) →
        assemble c { name := o.mnemonic.toList, operands := ns } =
          .ok (o.build (BitVec.ofNat 8 (ns.getD 0 0)) (BitVec.ofNat 8 (ns.getD 1 0)))) ∧
      (∀ n ∈ ns, 256 ≤ n →
        ∃ e, assemble c { name := o.mnemonic.toList, operands := ns } = .error e)) ∧
    assemble c { name := "ADDR_W".toList, operands := [] } = .ok (.address (addrW c)) ∧
    assemble c { name := "ADDR_R".toList, operands := [] } = .ok (.address (addrR c))

/-! ### One step -/

/-- R70, R74, R111, R151: where the host moves and the word at `cc` decodes to `i`, the step is `exec i`; around it the step only advances
the schedule. -/
def Obligations.StepRunsTheCommandAtCc : Prop :=
  ∀ (s : State) (w : Word) (i : Instr),
    running s = true → mover s = some .host → s.cmds[s.cc]? = some w → decode w = .ok i →
    step s = exec i { s with sched := s.sched.tail }

/-- R14, R59, R135: where the controller moves, the step is the controller step that is enabled. The mover is the schedule's choice (the
model's own field, log 2): the agent at its head, the controller past its end, the other where that one has no step. -/
def Obligations.StepRunsTheScheduledAgent : Prop :=
  (∀ (s : State) (c : ControllerStep), running s = true → mover s = some .controller → enabled c s = true →
    step s = .next (runStep c { s with sched := s.sched.tail })) ∧
  (∀ s : State, s.sched.head? = some .host → hostEnabled s = true → mover s = some .host) ∧
  (∀ s : State, s.sched.head? ≠ some .host → (∃ c, enabled c s = true) → mover s = some .controller) ∧
  (∀ s : State, hostEnabled s = false → (∃ c, enabled c s = true) → mover s = some .controller) ∧
  (∀ s : State, hostEnabled s = true → (∀ c, enabled c s = false) → mover s = some .host)

/-- R23: no fault is recorded at launch, and once one is recorded no agent takes another step, so it is never cleared. -/
def Obligations.NoStepAfterAFault : Prop :=
  (∀ (c : Config) (d : DeviceBinding) (regs : Memory) (present : Bool) (ws : List Word) (sc : List Agent),
    (launch c d regs present ws sc).fault = none) ∧
  ∀ (s : State) (r : FaultRecord), s.fault = some r →
    step s = .fault (.halted r) ∧ (∀ i, exec i s = .fault (.halted r)) ∧ ∀ c, enabled c s = false

/-- R200: a step that records a fault records its reason, `cc` and `mpc` and has no other effect, whether it is a command's action or a
controller step; the state is then terminal and not final. That RxByteAcked leaves DR, RXNE and the device as they were, against the order
of writes in R133's pseudocode, is the model's reading (log 9), and so is that `cls` stays none where the first command faults, against R24's
"is set when the first command starts" (log 20). -/
def Obligations.FaultsArePreciseAndTerminal : Prop :=
  (∀ (i : Instr) (s t : State) (f : FaultRecord), exec i s = .next t → t.fault = some f →
    f.cc = s.cc ∧ f.mpc = s.mpc ∧ t = { s with fault := some f }) ∧
  (∀ (c : ControllerStep) (s : State) (f : FaultRecord), enabled c s = true → (runStep c s).fault = some f →
    f.cc = s.cc ∧ f.mpc = s.mpc ∧ runStep c s = { s with fault := some f }) ∧
  (∀ (s t : State) (f : FaultRecord), step s = .next t → t.fault = some f →
    f.cc = s.cc ∧ f.mpc = s.mpc ∧ t = { s with sched := s.sched.tail, fault := some f }) ∧
  (∀ (s : State) (f : FaultRecord), s.fault = some f → step s = .fault (.halted f) ∧ isFinal s = false)

/-- R206: a launch with `HARDENED = true` is refused as a whole. -/
def Obligations.HardenedLaunchIsRefused : Prop :=
  ∀ s : State, s.fault = none → s.cfg.hardened = true →
    step s = .refused .hardenedVariant ∧ ∀ i, exec i s = .refused .hardenedVariant

/-- R207: with `cc` inside the stream, the run ends exactly in a final state; at the end of the stream with a transaction open the host's
last step raises `OpenTransactionAtEnd`; a Raw command leaves `txn` as it is. -/
def Obligations.RunEndsExactlyWhenFinal : Prop :=
  (∀ s : State, running s = true → s.cc ≤ s.cmds.length →
    (step s = .fault .runEnded ↔
      s.cc = s.cmds.length ∧ s.fault = none ∧ s.txn = .idle ∧ ∀ c, enabled c s = false) ∧
    (s.cc = s.cmds.length → s.txn ≠ .idle → mover s = some .host →
      step s = .next { s with
        sched := s.sched.tail, fault := some { reason := .openTransactionAtEnd s.txn, cc := s.cc, mpc := s.mpc } })) ∧
  (∀ (i : Instr) (s t : State), i.op.cls = .raw → exec i s = .next t → t.txn = s.txn)

/-- R202: at the start of a command the checks are made in the order IllegalCommand, MixedCommandClass, SequenceViolation,
UnmodelledAccess; a later action raises only UnmodelledAccess, a controller step only RxByteAcked. -/
def Obligations.ChecksComeInOrder : Prop :=
  (∀ (o : Op) (t : Txn), o.cls = .raw → legalIn o t = true) ∧
  (∀ (s : State) (w : Word), running s = true → mover s = some .host → fetch s = some w → s.mpc = 0 →
    let fails := fun r : FaultReason =>
      step s = .next { s with sched := s.sched.tail, fault := some { reason := r, cc := s.cc, mpc := s.mpc } }
    ((∀ i, decode w ≠ .ok i) → fails (.illegalCommand w)) ∧
    ∀ i, decode w = .ok i →
      ((s.cls ≠ none ∧ s.cls ≠ some i.op.cls) → fails (.mixedCommandClass i.op.code)) ∧
      ((s.cls = none ∨ s.cls = some i.op.cls) →
        (legalIn i.op s.txn = false → fails (.sequenceViolation i.op.code s.txn)) ∧
        (legalIn i.op s.txn = true → ∀ act, (actionsOf s.cfg i)[0]? = some act →
          (accessEffect act.accessOf s = none → fails (.unmodelledAccess act.accessOf s.phase)) ∧
          (accessEffect act.accessOf s ≠ none → ∃ t, step s = .next t ∧ t.fault = none)))) ∧
  (∀ (s t : State) (i : Instr) (f : FaultRecord), s.mpc ≠ 0 → exec i s = .next t → t.fault = some f →
    ∃ a, accessEffect a s = none ∧ f.reason = .unmodelledAccess a s.phase) ∧
  (∀ (s : State) (c : ControllerStep) (f : FaultRecord), enabled c s = true → (runStep c s).fault = some f →
    ∃ b, f.reason = .rxByteAcked b)

/-- R150: each Txn command is legal in the `txn` states of the table; in any other it raises `SequenceViolation` before its first action,
with nothing else changed; on completion it leaves the `txn` of the table. -/
def Obligations.TransactionGrammar : Prop :=
  (∀ t : Txn,
    (legalIn .beginTxn t = true ↔ t = .idle) ∧ (legalIn .address t = true ↔ t = .started) ∧
    (legalIn .writeByte t = true ↔ t = .addrW ∨ t = .wrote) ∧ (legalIn .readByte t = true ↔ t = .addrR) ∧
    (legalIn .endTxn t = true ↔ t = .wrote ∨ t = .read) ∧ (legalIn .readReg t = true ↔ t = .idle) ∧
    (legalIn .writeReg t = true ↔ t = .idle)) ∧
  (∀ (i : Instr) (s : State), i.op.cls = .txn → running s = true → s.mpc = 0 → (s.cls = none ∨ s.cls = some .txn) →
    legalIn i.op s.txn = false →
    exec i s = .next { s with
      fault := some { reason := .sequenceViolation i.op.code s.txn, cc := s.cc, mpc := s.mpc } }) ∧
  (∀ (i : Instr) (s t : State), i.op.cls = .txn → exec i s = .next t → t.cc = s.cc + 1 →
    t.txn = (match i with
      | .beginTxn => Txn.started
      | .address a => if a.getLsbD 0 then .addrR else .addrW
      | .writeByte _ => .wrote
      | .readByte => .read
      | _ => .idle))

/-! ### The controller's steps and the device -/

/-- R135: at most one controller step is enabled, and only the one the table gives for the phase. -/
def Obligations.AtMostOneControllerStep : Prop :=
  (∀ (s : State) (c d : ControllerStep), enabled c s = true → enabled d s = true → c = d) ∧
  (∀ (s : State) (c : ControllerStep), enabled c s = true →
    match s.phase with
    | .idle => c = .genStart
    | .msAddrTx _ => c = .addrTx
    | .mtTx _ => c = .byteTx
    | .mrRx => c = .rxByte
    | .mtBtf => c = .genStop
    | .mrDone => c = .genStop
    | .msSb | .msAddrAcked | .mtReady | .msNacked => False)

/-- R137: a controller step never writes `cc`, `mpc`, `tmp`, `obs`, `txn`, `cls`, CR.ACK or CR.PE (nor the parameters, the stream, the other CR
bits, the window or the draws), and none is enabled once a fault is recorded. -/
def Obligations.ControllerStepsFrame : Prop :=
  (∀ (s : State) (c : ControllerStep), enabled c s = true →
    let t := runStep c s
    t.cc = s.cc ∧ t.mpc = s.mpc ∧ t.tmp = s.tmp ∧ t.obs = s.obs ∧ t.txn = s.txn ∧ t.cls = s.cls ∧ t.cr.ack = s.cr.ack ∧
    t.cr.pe = s.cr.pe ∧ t.cr.other = s.cr.other ∧ t.cfg = s.cfg ∧ t.cmds = s.cmds ∧ t.rxWindowOpen = s.rxWindowOpen ∧
    t.draws = s.draws ∧ t.device = s.device ∧ t.sched = s.sched) ∧
  (∀ s : State, s.fault ≠ none → ∀ c, enabled c s = false)

/-- R130: GenStart. -/
def Obligations.GenStartSendsAStart : Prop :=
  ∀ s : State,
    (enabled .genStart s = true ↔
      s.phase = .idle ∧ s.cr.start = true ∧ s.cr.pe = true ∧ s.cfg.busStuck = false ∧ s.fault = none) ∧
    runStep .genStart s =
      deviceStart { s with
        cr := { s.cr with start := false }
        sr1 := { s.sr1 with sb := true, btf := false }
        arm := { sb := false, addr := false, btf := false }
        phase := .msSb }

/-- R131: AddrTx. -/
def Obligations.AddrTxSamplesTheAcknowledge : Prop :=
  ∀ s : State,
    (enabled .addrTx s = true ↔ (∃ a, s.phase = .msAddrTx a) ∧ s.cfg.busStuck = false ∧ s.fault = none) ∧
    ∀ a, s.phase = .msAddrTx a →
      runStep .addrTx s =
        if ackAddr a s then
          { deviceAddressed a s with sr1 := { s.sr1 with addr := true }, dir := a.getLsbD 0, phase := .msAddrAcked }
        else { deviceAddressed a s with sr1 := { s.sr1 with af := true }, phase := .msNacked }

/-- R132: ByteTx. -/
def Obligations.ByteTxSamplesTheAcknowledge : Prop :=
  ∀ s : State,
    (enabled .byteTx s = true ↔ (∃ b, s.phase = .mtTx b) ∧ s.cfg.busStuck = false ∧ s.fault = none) ∧
    ∀ b, s.phase = .mtTx b →
      runStep .byteTx s =
        if ackData b s then { deviceSent b s with sr1 := { s.sr1 with btf := true }, phase := .mtBtf }
        else { deviceSent b s with sr1 := { s.sr1 with af := true }, phase := .msNacked }

/-- R133 with R200: RxByte. With ACK = 0 the byte is received; with ACK = 1 the step records `RxByteAcked` and, faults being precise, nothing
else (the model's reading, log 9). -/
def Obligations.RxByteReceivesOneByte : Prop :=
  ∀ s : State,
    (enabled .rxByte s = true ↔
      s.phase = .mrRx ∧ s.sr1.rxne = false ∧ s.cfg.busStuck = false ∧ s.fault = none ∧
        (s.cfg.rxAckWindow = .free ∨ s.rxWindowOpen = false)) ∧
    (s.cr.ack = false →
      runStep .rxByte s = { deviceRead s with dr := readByte s, sr1 := { s.sr1 with rxne := true }, phase := .mrDone }) ∧
    (s.cr.ack = true →
      runStep .rxByte s =
        { s with fault := some { reason := .rxByteAcked (readByte s), cc := s.cc, mpc := s.mpc } })

/-- R134: GenStop. -/
def Obligations.GenStopSendsAStop : Prop :=
  ∀ s : State,
    (enabled .genStop s = true ↔
      s.cr.stop = true ∧ (s.phase = .mtBtf ∨ s.phase = .mrDone) ∧ s.cfg.busStuck = false ∧ s.fault = none) ∧
    runStep .genStop s =
      deviceStop { s with
        cr := { s.cr with stop := false }
        sr1 := { s.sr1 with btf := false }
        arm := { s.arm with btf := false }
        dir := false
        phase := .idle }

/-- R142–R145: the reference device's answers and its state after each query. -/
def Obligations.ReferenceDeviceAnswers : Prop :=
  ∀ s : State, s.device = .reference →
    (deviceStart s).ref = { s.ref with idx := 0, sel := false } ∧
    (deviceStop s).ref = { s.ref with sel := false } ∧
    (∀ a : Byte,
      (ackAddr a s = true ↔ s.ref.present = true ∧ a.extractLsb' 1 7 = s.cfg.devAddr7) ∧
      (deviceAddressed a s).ref = { s.ref with sel := ackAddr a s }) ∧
    (∀ b : Byte,
      ackData b s = s.ref.sel ∧
      (s.ref.sel = true → s.ref.idx = 0 → (deviceSent b s).ref = { s.ref with ptr := b, idx := 1 }) ∧
      (s.ref.sel = true → s.ref.idx ≠ 0 →
        (deviceSent b s).ref =
          { s.ref with
            regs := Memory.write s.ref.regs s.ref.ptr.toNat b, ptr := s.ref.ptr + 1, idx := s.ref.idx + 1 }) ∧
      (s.ref.sel = false → (deviceSent b s).ref = s.ref)) ∧
    readByte s = Memory.read s.ref.regs s.ref.ptr.toNat ∧
    (deviceRead s).ref = { s.ref with ptr := s.ref.ptr + 1 }

/-- R140: a query changes nothing but the device: the reference device where it is bound, and the trace of what the device has been sent and
has answered (the model's own field, log 5). -/
def Obligations.DeviceQueriesTouchOnlyTheDevice : Prop :=
  ∀ (s : State) (a : Byte),
    deviceStart s = { s with ref := (deviceStart s).ref, trace := s.trace ++ [.start] } ∧
    deviceStop s = { s with ref := (deviceStop s).ref, trace := s.trace ++ [.stop] } ∧
    deviceAddressed a s = { s with ref := (deviceAddressed a s).ref, trace := s.trace ++ [.address a (ackAddr a s)] } ∧
    deviceSent a s = { s with ref := (deviceSent a s).ref, trace := s.trace ++ [.data a (ackData a s)] } ∧
    deviceRead s = { s with ref := (deviceRead s).ref, trace := s.trace ++ [.read (readByte s)] } ∧
    (s.device = .oracle →
      (deviceStart s).ref = s.ref ∧ (deviceStop s).ref = s.ref ∧ (deviceAddressed a s).ref = s.ref ∧
      (deviceSent a s).ref = s.ref ∧ (deviceRead s).ref = s.ref)

/-- R141, R144, R145: in a canonical memory a sub-address reads as the byte last written to it and every other one as before. -/
def Obligations.DeviceMemoryReadAfterWrite : Prop :=
  ∀ (m : Memory) (a b : Nat) (v : Byte), Memory.wf m →
    Memory.read (Memory.write m a v) b = if b = a then v else Memory.read m b

/-! ### The raw commands -/

/-- R101: OP 0x20. RD_CR logs the word of CR: each of the four fields at its position, the other bits elsewhere; nothing but the window changes. -/
def Obligations.RdCrLogsTheControlRegister : Prop :=
  decode 0x20 = .ok .rdCr ∧
  ∀ s : State, running s = true → s.mpc = 0 → (s.cls = none ∨ s.cls = some .raw) → s.cfg.binding.wellFormed = true →
    ∃ v : Half,
      exec .rdCr s = .next { s with
        rxWindowOpen := false, obs := s.obs ++ [v], cls := some .raw, cc := s.cc + 1 } ∧
      v.getLsbD s.cfg.binding.pe = s.cr.pe ∧ v.getLsbD s.cfg.binding.start = s.cr.start ∧
      v.getLsbD s.cfg.binding.stop = s.cr.stop ∧ v.getLsbD s.cfg.binding.ack = s.cr.ack ∧
      ∀ j : Fin 16, j ∉ [s.cfg.binding.pe, s.cfg.binding.start, s.cfg.binding.stop, s.cfg.binding.ack] →
        v.getLsbD j = s.cr.other.getLsbD j

/-- R102: OP 0x21. SET_START sets CR.START in IDLE with STOP = 0, and is `UnmodelledAccess` elsewhere; with PE = 0 the request is not served. -/
def Obligations.SetStartRequestsAStart : Prop :=
  decode 0x21 = .ok .setStart ∧ (∀ s, s.cr.pe = false → enabled .genStart s = false) ∧
  ∀ s : State, running s = true → s.mpc = 0 → (s.cls = none ∨ s.cls = some .raw) →
    (s.phase = .idle ∧ s.cr.stop = false →
      exec .setStart s = .next { s with
        rxWindowOpen := false, cr := { s.cr with start := true }, cls := some .raw, cc := s.cc + 1 }) ∧
    (¬(s.phase = .idle ∧ s.cr.stop = false) →
      exec .setStart s = .next { s with
        fault := some { reason := .unmodelledAccess .setStart s.phase, cc := s.cc, mpc := s.mpc } })

/-- R103: OP 0x22. SET_STOP sets CR.STOP in MT_BTF and MR_DONE with START = 0, and is `UnmodelledAccess` elsewhere. -/
def Obligations.SetStopRequestsAStop : Prop :=
  decode 0x22 = .ok .setStop ∧
  ∀ s : State, running s = true → s.mpc = 0 → (s.cls = none ∨ s.cls = some .raw) →
    ((s.phase = .mtBtf ∨ s.phase = .mrDone) ∧ s.cr.start = false →
      exec .setStop s = .next { s with
        rxWindowOpen := false, cr := { s.cr with stop := true }, cls := some .raw, cc := s.cc + 1 }) ∧
    (¬((s.phase = .mtBtf ∨ s.phase = .mrDone) ∧ s.cr.start = false) →
      exec .setStop s = .next { s with
        fault := some { reason := .unmodelledAccess .setStop s.phase, cc := s.cc, mpc := s.mpc } })

/-- R104, R105: OP 0x23 and 0x24. SET_ACK and CLR_ACK write CR.ACK in every phase. -/
def Obligations.SetAndClearAcknowledge : Prop :=
  decode 0x23 = .ok .setAck ∧ decode 0x24 = .ok .clrAck ∧
  ∀ s : State, running s = true → s.mpc = 0 → (s.cls = none ∨ s.cls = some .raw) →
    exec .setAck s = .next { s with
      rxWindowOpen := false, cr := { s.cr with ack := true }, cls := some .raw, cc := s.cc + 1 } ∧
    exec .clrAck s = .next { s with
      rxWindowOpen := false, cr := { s.cr with ack := false }, cls := some .raw, cc := s.cc + 1 }

/-- R106: OP 0x25. RD_SR1 logs a draw with the five flags at their positions and sets the three latches from the flags. -/
def Obligations.RdSr1LogsTheFlagsAndArms : Prop :=
  decode 0x25 = .ok .rdSr1 ∧
  ∀ s : State, running s = true → s.mpc = 0 → (s.cls = none ∨ s.cls = some .raw) → s.cfg.binding.wellFormed = true →
    ∃ v : Half,
      exec .rdSr1 s = .next { s with
        rxWindowOpen := false, draws := s.draws + 1
        arm := { sb := s.sr1.sb, addr := s.sr1.addr, btf := s.sr1.btf }
        obs := s.obs ++ [v], cls := some .raw, cc := s.cc + 1 } ∧
      v.getLsbD s.cfg.binding.sb = s.sr1.sb ∧ v.getLsbD s.cfg.binding.addr = s.sr1.addr ∧
      v.getLsbD s.cfg.binding.btf = s.sr1.btf ∧ v.getLsbD s.cfg.binding.rxne = s.sr1.rxne ∧
      v.getLsbD s.cfg.binding.af = s.sr1.af ∧
      ∀ j : Fin 16,
        j ∉ [s.cfg.binding.sb, s.cfg.binding.addr, s.cfg.binding.btf, s.cfg.binding.rxne, s.cfg.binding.af] →
        v.getLsbD j = (Config.freeWord s.draws).getLsbD j

/-- R107: OP 0x26. RD_SR2 logs a draw; where ADDR is 1 and armed it clears it and ends the address phase, into MT_READY for a write and into MR_RX
with the window open for a read; elsewhere it clears nothing. -/
def Obligations.RdSr2ClearsAnArmedAddress : Prop :=
  decode 0x26 = .ok .rdSr2 ∧
  ∀ s : State, running s = true → s.mpc = 0 → (s.cls = none ∨ s.cls = some .raw) →
    let t := { s with
      draws := s.draws + 1, obs := s.obs ++ [Config.freeWord s.draws], cls := some .raw, cc := s.cc + 1 }
    (s.arm.addr = true → s.sr1.addr = true → s.dir = false →
      exec .rdSr2 s = .next { t with
        rxWindowOpen := false, phase := .mtReady
        sr1 := { s.sr1 with addr := false }, arm := { s.arm with addr := false } }) ∧
    (s.arm.addr = true → s.sr1.addr = true → s.dir = true →
      exec .rdSr2 s = .next { t with
        rxWindowOpen := true, phase := .mrRx
        sr1 := { s.sr1 with addr := false }, arm := { s.arm with addr := false } }) ∧
    (¬(s.arm.addr = true ∧ s.sr1.addr = true) → exec .rdSr2 s = .next { t with rxWindowOpen := false })

/-- R108: OP 0x27 with the byte in A. WR_DR in each of its four phases, and `UnmodelledAccess` elsewhere. -/
def Obligations.WrDrStartsATransfer : Prop :=
  (∀ b : Byte, decode (0#8 ++ 0#8 ++ b ++ 0x27#8) = .ok (.wrDr b)) ∧
  ∀ (s : State) (b : Byte), running s = true → s.mpc = 0 → (s.cls = none ∨ s.cls = some .raw) →
    let t := { s with rxWindowOpen := false, dr := b, cls := some .raw, cc := s.cc + 1 }
    (s.phase = .msSb → s.sr1.sb = true → s.arm.sb = true →
      exec (.wrDr b) s = .next { t with
        sr1 := { s.sr1 with sb := false }, arm := { s.arm with sb := false }, phase := .msAddrTx b }) ∧
    (s.phase = .mtReady → exec (.wrDr b) s = .next { t with phase := .mtTx b }) ∧
    (s.phase = .mtBtf → s.sr1.btf = true → s.arm.btf = true →
      exec (.wrDr b) s = .next { t with
        sr1 := { s.sr1 with btf := false }, arm := { s.arm with btf := false }, phase := .mtTx b }) ∧
    (s.phase = .msNacked → exec (.wrDr b) s = .next t) ∧
    (¬(s.phase = .msSb ∧ s.sr1.sb = true ∧ s.arm.sb = true) → s.phase ≠ .mtReady →
      ¬(s.phase = .mtBtf ∧ s.sr1.btf = true ∧ s.arm.btf = true) → s.phase ≠ .msNacked →
      exec (.wrDr b) s = .next { s with
        fault := some { reason := .unmodelledAccess (.wrDr b) s.phase, cc := s.cc, mpc := s.mpc } })

/-- R109: OP 0x28. RD_DR logs DR and clears RXNE where RXNE is 1; elsewhere it logs a draw and changes nothing else. -/
def Obligations.RdDrLogsTheByte : Prop :=
  decode 0x28 = .ok .rdDr ∧
  ∀ s : State, running s = true → s.mpc = 0 → (s.cls = none ∨ s.cls = some .raw) →
    (s.sr1.rxne = true →
      exec .rdDr s = .next { s with
        rxWindowOpen := false, sr1 := { s.sr1 with rxne := false }
        obs := s.obs ++ [s.dr.setWidth 16], cls := some .raw, cc := s.cc + 1 }) ∧
    (s.sr1.rxne = false →
      exec .rdDr s = .next { s with
        rxWindowOpen := false, draws := s.draws + 1
        obs := s.obs ++ [(Config.freeByte s.draws).setWidth 16], cls := some .raw, cc := s.cc + 1 })

/-- R100: the admission table: an access inside its conditions has the effect of its rule, and outside them it raises `UnmodelledAccess` and
changes no state. -/
def Obligations.AdmissionTable : Prop :=
  (∀ (s : State) (b : Byte),
    (∀ r, admitted (.read r) s = true) ∧ admitted .setAck s = true ∧ admitted .clrAck s = true ∧
    (admitted .setStart s = true ↔ s.phase = .idle ∧ s.cr.stop = false) ∧
    (admitted .setStop s = true ↔ (s.phase = .mtBtf ∨ s.phase = .mrDone) ∧ s.cr.start = false) ∧
    (admitted (.wrDr b) s = true ↔
      (s.phase = .msSb ∧ s.sr1.sb = true ∧ s.arm.sb = true) ∨ s.phase = .mtReady ∨
      (s.phase = .mtBtf ∧ s.sr1.btf = true ∧ s.arm.btf = true) ∨ s.phase = .msNacked)) ∧
  (∀ (s : State) (a : Access) (k : State → State),
    (∀ t, accessEffect a s = some t → access a s k = k t) ∧
    (admitted a s = false →
      access a s k = { s with
        fault := some { reason := .unmodelledAccess a s.phase, cc := s.cc, mpc := s.mpc } }))

/-! ### The bus primitives, action by action -/

/-- R152: BEGIN. Its first action requests the start; its poll completes the command exactly when SB is 1, with `txn` T_STARTED. -/
def Obligations.BeginRequestsAndAwaitsStart : Prop :=
  ∀ s : State, running s = true → s.cfg.binding.wellFormed = true →
    (s.mpc = 0 → (s.cls = none ∨ s.cls = some .txn) → s.txn = .idle → s.phase = .idle → s.cr.stop = false →
      exec .beginTxn s = .next { s with
        rxWindowOpen := false, cr := { s.cr with start := true }, cls := some .txn, mpc := 1 }) ∧
    (s.mpc = 1 → s.sr1.sb = true →
      exec .beginTxn s = .next { sr1Read s with txn := .started, cc := s.cc + 1, mpc := 0 }) ∧
    (s.mpc = 1 → s.sr1.sb = false → exec .beginTxn s = .next (sr1Read s))

/-- R153: ADDRESS a. The byte is written; the poll ends on ADDR or AF; then the two status reads; `txn` follows `a[0]`. -/
def Obligations.AddressWritesAndAwaitsTheAnswer : Prop :=
  ∀ (s : State) (a : Byte), running s = true → s.cfg.binding.wellFormed = true →
    (s.mpc = 0 → (s.cls = none ∨ s.cls = some .txn) → s.txn = .started → ∀ t, drWrite a s = some t →
      exec (.address a) s = .next { t with cls := some .txn, mpc := 1 }) ∧
    (s.mpc = 1 → (s.sr1.addr = true ∨ s.sr1.af = true) → exec (.address a) s = .next { sr1Read s with mpc := 2 }) ∧
    (s.mpc = 1 → s.sr1.addr = false → s.sr1.af = false → exec (.address a) s = .next (sr1Read s)) ∧
    (s.mpc = 2 → exec (.address a) s = .next { sr1Read s with mpc := 3 }) ∧
    (s.mpc = 3 →
      exec (.address a) s = .next { sr2Read s with
        txn := if a.getLsbD 0 then .addrR else .addrW, cc := s.cc + 1, mpc := 0 })

/-- R154: WRITE_BYTE b. The byte is written; the poll completes the command exactly when BTF is 1, with `txn` T_WROTE. -/
def Obligations.WriteByteSendsAndAwaitsTheByte : Prop :=
  ∀ (s : State) (b : Byte), running s = true → s.cfg.binding.wellFormed = true →
    (s.mpc = 0 → (s.cls = none ∨ s.cls = some .txn) → (s.txn = .addrW ∨ s.txn = .wrote) → ∀ t, drWrite b s = some t →
      exec (.writeByte b) s = .next { t with cls := some .txn, mpc := 1 }) ∧
    (s.mpc = 1 → s.sr1.btf = true →
      exec (.writeByte b) s = .next { sr1Read s with txn := .wrote, cc := s.cc + 1, mpc := 0 }) ∧
    (s.mpc = 1 → s.sr1.btf = false → exec (.writeByte b) s = .next (sr1Read s))

/-- R155: READ_BYTE. ACK is cleared, RXNE awaited, DR read into `tmp`, ACK set again and `tmp` logged, with `txn` T_READ. -/
def Obligations.ReadByteTakesOneByte : Prop :=
  ∀ s : State, running s = true → s.cfg.binding.wellFormed = true →
    (s.mpc = 0 → (s.cls = none ∨ s.cls = some .txn) → s.txn = .addrR →
      exec .readByte s = .next { s with
        rxWindowOpen := false, cr := { s.cr with ack := false }, cls := some .txn, mpc := 1 }) ∧
    (s.mpc = 1 → s.sr1.rxne = true → exec .readByte s = .next { sr1Read s with mpc := 2 }) ∧
    (s.mpc = 1 → s.sr1.rxne = false → exec .readByte s = .next (sr1Read s)) ∧
    (s.mpc = 2 → s.sr1.rxne = true →
      exec .readByte s = .next { s with
        rxWindowOpen := false, sr1 := { s.sr1 with rxne := false }, tmp := s.dr, mpc := 3 }) ∧
    (s.mpc = 2 → s.sr1.rxne = false →
      exec .readByte s = .next { s with
        rxWindowOpen := false, draws := s.draws + 1, tmp := Config.freeByte s.draws, mpc := 3 }) ∧
    (s.mpc = 3 →
      exec .readByte s = .next { s with
        rxWindowOpen := false, cr := { s.cr with ack := true }, txn := .read, obs := s.obs ++ [s.tmp.setWidth 16]
        cc := s.cc + 1, mpc := 0 })

/-- R156: END. The stop is requested; the poll of CR completes the command exactly when STOP is 0, with `txn` T_IDLE. -/
def Obligations.EndRequestsAndAwaitsStop : Prop :=
  ∀ s : State, running s = true → s.cfg.binding.wellFormed = true →
    (s.mpc = 0 → (s.cls = none ∨ s.cls = some .txn) → (s.txn = .wrote ∨ s.txn = .read) →
      (s.phase = .mtBtf ∨ s.phase = .mrDone) → s.cr.start = false →
      exec .endTxn s = .next { s with
        rxWindowOpen := false, cr := { s.cr with stop := true }, cls := some .txn, mpc := 1 }) ∧
    (s.mpc = 1 → s.cr.stop = false →
      exec .endTxn s = .next { s with rxWindowOpen := false, txn := .idle, cc := s.cc + 1, mpc := 0 }) ∧
    (s.mpc = 1 → s.cr.stop = true → exec .endTxn s = .next { s with rxWindowOpen := false })

/-! ### The composers, action by action -/

/-- R171: READ_REG s performs the twenty-two lines of its list in order, and after the last one logs `tmp`, leaving `txn` T_IDLE. -/
def Obligations.ReadRegPerformsItsLines : Prop :=
  ∀ (s t : State) (sub : Byte) (act : Action) (ends : Bool), running s = true → s.cfg.binding.wellFormed = true →
    (s.mpc = 0 → (s.cls = none ∨ s.cls = some .txn) ∧ s.txn = .idle) →
    [ Action.access .setStart, .poll .startSent, .access (.wrDr (addrW s.cfg)), .poll .addressAnswered,
      .access (.read .sr1), .access (.read .sr2), .access (.wrDr sub), .poll .byteFinished, .access .setStop, .poll .stopSent,
      .access .setStart, .poll .startSent, .access (.wrDr (addrR s.cfg)), .poll .addressAnswered,
      .access (.read .sr1), .access (.read .sr2), .access .clrAck, .poll .byteReceived, .readTmp, .access .setAck,
      .access .setStop, .poll .stopSent ][s.mpc]? = some act →
    lineEffect act s = some (t, ends) →
    let u := { t with cls := if s.mpc = 0 then some .txn else s.cls }
    (ends = false → exec (.readReg sub) s = .next u) ∧
    (ends = true → s.mpc ≠ 21 → exec (.readReg sub) s = .next { u with mpc := s.mpc + 1 }) ∧
    (ends = true → s.mpc = 21 →
      exec (.readReg sub) s = .next { u with
        txn := .idle, obs := s.obs ++ [s.tmp.setWidth 16], cc := s.cc + 1, mpc := 0 })

/-- R172: WRITE_REG s, v performs the twelve lines of its list in order, leaving `txn` T_IDLE. -/
def Obligations.WriteRegPerformsItsLines : Prop :=
  ∀ (s t : State) (sub value : Byte) (act : Action) (ends : Bool), running s = true → s.cfg.binding.wellFormed = true →
    (s.mpc = 0 → (s.cls = none ∨ s.cls = some .txn) ∧ s.txn = .idle) →
    [ Action.access .setStart, .poll .startSent, .access (.wrDr (addrW s.cfg)), .poll .addressAnswered,
      .access (.read .sr1), .access (.read .sr2), .access (.wrDr sub), .poll .byteFinished, .access (.wrDr value),
      .poll .byteFinished, .access .setStop, .poll .stopSent ][s.mpc]? = some act →
    lineEffect act s = some (t, ends) →
    let u := { t with cls := if s.mpc = 0 then some .txn else s.cls }
    (ends = false → exec (.writeReg sub value) s = .next u) ∧
    (ends = true → s.mpc ≠ 11 → exec (.writeReg sub value) s = .next { u with mpc := s.mpc + 1 }) ∧
    (ends = true → s.mpc = 11 →
      exec (.writeReg sub value) s = .next { u with txn := .idle, cc := s.cc + 1, mpc := 0 })

/-- R170, R175: a composer's action list is the concatenation of those of the primitives it is made of. -/
def Obligations.ComposersAreTheirPrimitives : Prop :=
  ∀ (c : Config) (sub value : Byte),
    actionsOf c (.readReg sub) =
      [Instr.beginTxn, .address (addrW c), .writeByte sub, .endTxn, .beginTxn, .address (addrR c), .readByte, .endTxn].flatMap
        (actionsOf c) ∧
    actionsOf c (.writeReg sub value) =
      [Instr.beginTxn, .address (addrW c), .writeByte sub, .writeByte value, .endTxn].flatMap (actionsOf c)

/-- R120: a poll reads its register once, with the read's side effects; where the condition holds of the word read the counters advance,
elsewhere `mpc` stays; a poll read logs nothing, and it is admitted in every phase. -/
def Obligations.PollRepeatsUntilItsCondition : Prop :=
  ∀ (s : State) (c : Cond) (last : Bool) (complete : State → State),
    let b := s.cfg.binding
    let v := regValue c.reg s
    let met : Bool :=
      match c with
      | .startSent => v.getLsbD b.sb
      | .addressAnswered => v.getLsbD b.addr || v.getLsbD b.af
      | .byteFinished => v.getLsbD b.btf
      | .byteReceived => v.getLsbD b.rxne
      | .stopSent => !v.getLsbD b.stop
    let t := { afterRead c.reg s with cls := if s.mpc = 0 then some .txn else s.cls }
    (met = true →
      performAction (.poll c) last complete s =
        if last then { complete t with cc := s.cc + 1, mpc := 0 } else { t with mpc := s.mpc + 1 }) ∧
    (met = false → performAction (.poll c) last complete s = t) ∧
    t.obs = s.obs ∧ t.cc = s.cc ∧ t.mpc = s.mpc ∧ admitted (.read c.reg) s = true

/-! ### Whole commands, under every schedule -/

/-- R171, R173, R174: READ_REG s against the present reference device completes under every schedule: it appends the register's byte, runs exactly
two transactions, leaves the registers alone and the bus free, ACK at 1, the pointer one further. The trace it is read off is the model's own
field (log 5); that every schedule ends eagerly, so that the command completes, is the model's choice (log 2). -/
def Obligations.ReadRegReturnsTheRegister : Prop :=
  ∀ (s : State) (sub : Byte), readyForComposer s = true → fetch s = some (encode (.readReg sub)) →
    let v := Memory.read s.ref.regs sub.toNat
    ∃ t, reaches s t ∧ t.cc = s.cc + 1 ∧ t.mpc = 0 ∧ t.txn = .idle ∧ t.fault = none ∧ t.cls = some .txn ∧
      t.obs = s.obs ++ [v.setWidth 16] ∧ busIdle t = true ∧ t.cr.ack = true ∧ t.cr.pe = true ∧
      t.dr = v ∧ t.ref.regs = s.ref.regs ∧ t.ref.ptr = sub + 1 ∧ t.cfg = s.cfg ∧ t.cmds = s.cmds ∧
      t.trace = s.trace ++
        [ .start, .address (addrW s.cfg) true, .data sub true, .stop,
          .start, .address (addrR s.cfg) true, .read v, .stop ]

/-- R172, R173: WRITE_REG s, v against the present reference device completes under every schedule: it writes the register and no other, runs exactly
one transaction, logs nothing, leaves ACK alone and the bus free. The trace is the model's own field (log 5); that every schedule ends eagerly,
so that the command completes, is the model's choice (log 2). -/
def Obligations.WriteRegWritesTheRegister : Prop :=
  ∀ (s : State) (sub value : Byte), readyForComposer s = true → fetch s = some (encode (.writeReg sub value)) →
    ∃ t, reaches s t ∧ t.cc = s.cc + 1 ∧ t.mpc = 0 ∧ t.txn = .idle ∧ t.fault = none ∧ t.cls = some .txn ∧
      t.obs = s.obs ∧ busIdle t = true ∧ t.cr.ack = s.cr.ack ∧ t.cr.pe = true ∧ t.dr = value ∧
      t.ref.regs = Memory.write s.ref.regs sub.toNat value ∧ t.ref.ptr = sub + 1 ∧ t.cfg = s.cfg ∧ t.cmds = s.cmds ∧
      t.trace = s.trace ++ [.start, .address (addrW s.cfg) true, .data sub true, .data value true, .stop]

/-- R203–R205: once the device has not acknowledged, WRITE_BYTE polls BTF and READ_BYTE polls RXNE for ever, under every schedule: no fault, no end,
no progress. Which command hangs is decision D20 (log 24). -/
def Obligations.DataPollHangsAfterANack : Prop :=
  ∀ (s : State) (i : Instr), running s = true → s.cfg.binding.wellFormed = true → currentCommand s = some i → s.mpc = 1 →
    s.phase = .msNacked → (i = .readByte ∧ s.sr1.rxne = false ∨ (∃ b, i = .writeByte b) ∧ s.sr1.btf = false) →
    ∀ n, ∃ t, runsTo n s t ∧ t.cc = s.cc ∧ t.mpc = 1 ∧ t.fault = none ∧ t.phase = .msNacked ∧ t.obs = s.obs

/-- R204, R221: at reset PE is 0. While PE is 0, or the bus is stuck, a BEGIN polls SB for ever, under every schedule. -/
def Obligations.BeginHangsWithoutABus : Prop :=
  State.reset.cr.pe = false ∧
  ∀ s : State, running s = true → s.cfg.binding.wellFormed = true → currentCommand s = some .beginTxn →
    s.phase = .idle → s.sr1.sb = false → (s.cr.pe = false ∨ s.cfg.busStuck = true) →
    (s.mpc = 1 ∨ s.mpc = 0 ∧ (s.cls = none ∨ s.cls = some .txn) ∧ s.txn = .idle ∧ s.cr.stop = false) →
    ∀ n, ∃ t, runsTo (n + 1) s t ∧ t.cc = s.cc ∧ t.mpc = 1 ∧ t.fault = none ∧ t.phase = .idle

/-! ### Invariants -/

/-- R21, R30–R43: every step keeps the invariant that ties flags, requests, latches, direction and window to the phase. -/
def Obligations.StepKeepsInv : Prop :=
  ∀ s t : State, Inv s → step s = .next t → Inv t

/-- The invariant holds at reset, and at every launch whose device memory is canonical. -/
def Obligations.ResetAndLaunchMeetInv : Prop :=
  Inv State.reset ∧
  ∀ (c : Config) (d : DeviceBinding) (regs : Memory) (present : Bool) (ws : List Word) (sc : List Agent),
    Memory.wf regs → Inv (launch c d regs present ws sc)

/-- R21: under the invariant `mpc` always names an action, so the model's own stop `noSuchAction` (log 8) is never reached. -/
def Obligations.ActionIndexIsNeverLost : Prop :=
  ∀ s : State, Inv s → step s ≠ .fault .noSuchAction

/-- R150, R157, R158, R231: every step keeps the protocol invariant: a Txn-class program stands at its protocol point after every action
and every controller step, whatever the device answers, and the only faults it can record are those `txnFaultAllowed` lists. -/
def Obligations.StepKeepsTxnInv : Prop :=
  ∀ s t : State, TxnInv s = true → step s = .next t → TxnInv t = true

/-- R222: the external initialisation sets PE, ACK to ACK_INIT and the un-modelled CR bits to CR_OTHER and leaves everything else; a launch is the
reset state of R46 but for these and what a launch supplies, the reference device's pointer and byte count at 0 (its `sel` at reset is the
model's choice, log 15; the binding of the device and the schedule are the model's own fields, logs 4 and 2); every launch meets the protocol invariant and, with the bus free to move and `HARDENED = false`, is a clean entry. -/
def Obligations.LaunchIsACleanEntry : Prop :=
  (∀ s : State,
    initialise s = { s with
      cr := { pe := true, start := s.cr.start, stop := s.cr.stop, ack := s.cfg.ackInit, other := s.cfg.crOther } }) ∧
  ∀ (c : Config) (d : DeviceBinding) (regs : Memory) (present : Bool) (ws : List Word) (sc : List Agent),
    launch c d regs present ws sc = { State.reset with
      cfg := c, device := d, cmds := ws, sched := sc
      cr := { pe := true, start := false, stop := false, ack := c.ackInit, other := c.crOther }
      ref := { regs := regs, ptr := 0, idx := 0, sel := false, present := present } } ∧
    (c.binding.wellFormed = true → TxnInv (launch c d regs present ws sc) = true) ∧
    (c.busStuck = false → c.hardened = false → cleanEntry (launch c d regs present ws sc) = true)

/-- R157, R158: in a Txn-class program every access of a legal command is admitted, whatever the device answers. -/
def Obligations.TxnAccessesAreAdmitted : Prop :=
  ∀ (s : State) (i : Instr) (act : Action), TxnInv s = true → s.fault = none → s.cls ≠ some .raw →
    currentCommand s = some i → i.op.cls = .txn → legalIn i.op s.txn = true → (actionsOf s.cfg i)[s.mpc]? = some act →
    admitted act.accessOf s = true

/-- R233: in a Txn-class program START and STOP are 0 whenever SET_START, SET_STOP, SET_ACK or CLR_ACK is performed. -/
def Obligations.ControlWritesFindNoRequestPending : Prop :=
  ∀ (s : State) (i : Instr) (act : Action), TxnInv s = true → s.fault = none → s.cls ≠ some .raw →
    currentCommand s = some i → i.op.cls = .txn → legalIn i.op s.txn = true → (actionsOf s.cfg i)[s.mpc]? = some act →
    act ∈ [Action.access .setStart, .access .setStop, .access .setAck, .access .clrAck] →
    s.cr.start = false ∧ s.cr.stop = false

/-- R22, R39, R62: no step rewrites the log, the stream or the parameters, `cc` advances by at most one, and PE and the un-modelled CR bits are
never written. -/
def Obligations.LogStreamAndParametersArePreserved : Prop :=
  ∀ s t : State, step s = .next t →
    s.obs <+: t.obs ∧ t.cmds = s.cmds ∧ t.cfg = s.cfg ∧ (t.cc = s.cc ∨ t.cc = s.cc + 1) ∧ t.cr.pe = s.cr.pe ∧
    t.cr.other = s.cr.other ∧ t.device = s.device ∧ t.ref.present = s.ref.present ∧ s.trace <+: t.trace

/-- R34, R40: no step clears AF, and under the invariant no step leaves MS_NACKED. -/
def Obligations.AcknowledgeFailureIsSticky : Prop :=
  ∀ s t : State, step s = .next t →
    (s.sr1.af = true → t.sr1.af = true) ∧ (Inv s → s.phase = .msNacked → t.phase = .msNacked)

/-! ### Reset, the external initialisation, and the block's boundary -/

/-- R46, R220: the reset values the spec gives. -/
def Obligations.ResetValues : Prop :=
  let s := State.reset
  s.cr = { pe := false, start := false, stop := false, ack := false, other := 0 } ∧
  s.sr1 = { sb := false, addr := false, btf := false, rxne := false, af := false } ∧
  s.dr = 0 ∧ s.phase = .idle ∧ s.dir = false ∧ s.arm = { sb := false, addr := false, btf := false } ∧
  s.rxWindowOpen = false ∧ s.txn = .idle ∧ s.cc = 0 ∧ s.mpc = 0 ∧ s.tmp = 0 ∧ s.obs = [] ∧ s.fault = none ∧ s.cls = none ∧
  s.ref.ptr = 0 ∧ s.ref.idx = 0

/-- R51, R53, R54, R55: on a byte-addressed bus, whatever the base and the binding are, an access that is not a whole aligned word at one of the
four register addresses is refused. With a well-formed binding and an aligned base, a read of the word at a register's address is that
register's read with bits [31:16] 0, SR1 and SR2 take no write, a write of DR moves the low byte, and a read-modify-write of CR that sets or
clears one bit is the one access of that bit (which CR writes count as such is the model's reading, log 28). That it holds in states with a
fault recorded or under `HARDENED` too is the model's choice (log 35), and so are the 32 bits of an address and the wrapping sum of base and
offset (log 36). -/
def Obligations.BusPortIsWholeWords : Prop :=
  (∀ (s : State) (bytes : Nat) (addr v : Word),
    let base := s.cfg.i2cBase
    let b := s.cfg.binding
    (bytes ≠ 4 ∨ addr.toNat % 4 ≠ 0 ∨
      addr ∉ [base + b.crOffset, base + b.drOffset, base + b.sr1Offset, base + b.sr2Offset]) →
    busRead addr bytes s = .error .notARegister ∧ busWrite addr bytes v s = .error .notARegister) ∧
  ∀ (s : State) (v : Word), s.cfg.binding.wellFormed = true → s.cfg.baseAligned = true →
    let base := s.cfg.i2cBase
    let b := s.cfg.binding
    busRead (base + b.crOffset) 4 s = .ok ((regValue .cr s).setWidth 32, afterRead .cr s) ∧
    busRead (base + b.drOffset) 4 s = .ok ((regValue .dr s).setWidth 32, afterRead .dr s) ∧
    busRead (base + b.sr1Offset) 4 s = .ok ((regValue .sr1 s).setWidth 32, afterRead .sr1 s) ∧
    busRead (base + b.sr2Offset) 4 s = .ok ((regValue .sr2 s).setWidth 32, afterRead .sr2 s) ∧
    busWrite (base + b.sr1Offset) 4 v s = .error .readOnly ∧
    busWrite (base + b.sr2Offset) 4 v s = .error .readOnly ∧
    (∀ t, drWrite (v.setWidth 8) s = some t → busWrite (base + b.drOffset) 4 v s = .ok t) ∧
    (∀ t, startWrite s = some t → s.cr.start = false →
      busWrite (base + b.crOffset) 4 ((regValue .cr s ||| (1#16 <<< b.start.val)).setWidth 32) s = .ok t) ∧
    (∀ t, stopWrite s = some t → s.cr.stop = false →
      busWrite (base + b.crOffset) 4 ((regValue .cr s ||| (1#16 <<< b.stop.val)).setWidth 32) s = .ok t) ∧
    busWrite (base + b.crOffset) 4 ((regValue .cr s ||| (1#16 <<< b.ack.val)).setWidth 32) s = .ok (ackWrite true s) ∧
    busWrite (base + b.crOffset) 4 ((regValue .cr s &&& ~~~(1#16 <<< b.ack.val)).setWidth 32) s = .ok (ackWrite false s)

/-- R182: the byte assembly of an axis, its range, and the worked example. -/
def Obligations.AxisBytesAreSignedLittleEndian : Prop :=
  (∀ lo hi : Byte,
    rawAxis lo hi =
      (if hi.toNat < 128 then (lo.toNat : Int) + 256 * hi.toNat else (lo.toNat : Int) + 256 * hi.toNat - 65536) ∧
    -32768 ≤ rawAxis lo hi ∧ rawAxis lo hi ≤ 32767) ∧
  rawAxis 0x34 0x12 = 4660
end

