-- ==== Sys2Proof/Laws/BusPort.lean ====
section
/-! SUPPORT. Which register an access on the byte-addressed bus reaches, in both directions (R53). -/

namespace Sys2Proof.Machine

/-- All `regAt` can answer: a register reached is a whole aligned word at that register's address. -/
theorem regAt_some {c : Config} {addr : Word} {bytes : Nat} {r : Reg} (h : regAt c addr bytes = some r) :
    bytes = 4 ∧ addr.toNat % 4 = 0 ∧ addr = regAddress c r := by
  unfold regAt at h
  split at h
  · have hr := List.find?_some h
    simp_all [wholeAlignedWord]
  · cases h

/-- With a well-formed binding and an aligned base, every register is reached at its address. -/
theorem regAt_regAddress (c : Config) (r : Reg) (hb : c.binding.wellFormed = true) (ha : c.baseAligned = true) :
    regAt c (regAddress c r) 4 = some r := by
  simp only [Binding.wellFormed, Binding.offsetsDistinct, Binding.offsetsAligned, Bool.and_eq_true, decide_eq_true_eq,
    List.nodup_cons, List.mem_cons, List.not_mem_nil, or_false, not_or, List.all_cons, List.all_nil, beq_iff_eq] at hb
  simp only [Config.baseAligned, beq_iff_eq] at ha
  have hal : wholeAlignedWord (regAddress c r) 4 = true := by
    cases r <;> simp only [wholeAlignedWord, regAddress, BitVec.toNat_add, beq_self_eq_true, Bool.true_and, beq_iff_eq] <;> omega
  obtain ⟨⟨⟨-, -⟩, ⟨h1, h2, h3⟩, ⟨h4, h5⟩, h6, -⟩, -⟩ := hb
  cases r <;> simp only [regAddress] at hal <;>
    simp [regAt, hal, regAddress, Ne.symm h1, Ne.symm h2, Ne.symm h3, Ne.symm h4, Ne.symm h5, Ne.symm h6]

/-- Every other access reaches none. -/
theorem regAt_none {c : Config} {addr : Word} {bytes : Nat}
    (h : bytes ≠ 4 ∨ addr.toNat % 4 ≠ 0 ∨ ∀ r, addr ≠ regAddress c r) : regAt c addr bytes = none := by
  cases hr : regAt c addr bytes with
  | none => rfl
  | some r =>
    obtain ⟨h1, h2, h3⟩ := regAt_some hr
    rcases h with h | h | h
    · exact absurd h1 h
    · exact absurd h2 h
    · exact absurd h3 (h r)

end Sys2Proof.Machine
end

