-- ==== Sys2Proof/Laws/State.lean ====
section
/-! SUPPORT. One lemma per field per update of the state, so that no later proof unfolds a record update. -/

namespace Sys2Proof.Machine

variable (s : State)

/-! ### `closeWindow`: the window closes (R110) -/

@[simp] theorem closeWindow_cfg : (closeWindow s).cfg = s.cfg := rfl
@[simp] theorem closeWindow_cmds : (closeWindow s).cmds = s.cmds := rfl
@[simp] theorem closeWindow_cc : (closeWindow s).cc = s.cc := rfl
@[simp] theorem closeWindow_mpc : (closeWindow s).mpc = s.mpc := rfl
@[simp] theorem closeWindow_tmp : (closeWindow s).tmp = s.tmp := rfl
@[simp] theorem closeWindow_obs : (closeWindow s).obs = s.obs := rfl
@[simp] theorem closeWindow_fault : (closeWindow s).fault = s.fault := rfl
@[simp] theorem closeWindow_cls : (closeWindow s).cls = s.cls := rfl
@[simp] theorem closeWindow_txn : (closeWindow s).txn = s.txn := rfl
@[simp] theorem closeWindow_cr : (closeWindow s).cr = s.cr := rfl
@[simp] theorem closeWindow_sr1 : (closeWindow s).sr1 = s.sr1 := rfl
@[simp] theorem closeWindow_dr : (closeWindow s).dr = s.dr := rfl
@[simp] theorem closeWindow_phase : (closeWindow s).phase = s.phase := rfl
@[simp] theorem closeWindow_dir : (closeWindow s).dir = s.dir := rfl
@[simp] theorem closeWindow_arm : (closeWindow s).arm = s.arm := rfl
@[simp] theorem closeWindow_rxWindowOpen : (closeWindow s).rxWindowOpen = false := rfl
@[simp] theorem closeWindow_device : (closeWindow s).device = s.device := rfl
@[simp] theorem closeWindow_ref : (closeWindow s).ref = s.ref := rfl
@[simp] theorem closeWindow_trace : (closeWindow s).trace = s.trace := rfl
@[simp] theorem closeWindow_draws : (closeWindow s).draws = s.draws := rfl
@[simp] theorem closeWindow_sched : (closeWindow s).sched = s.sched := rfl

/-! ### `raiseFault`: only the fault record is written (R200) -/

@[simp] theorem raiseFault_cfg (r : FaultReason) : (raiseFault r s).cfg = s.cfg := rfl
@[simp] theorem raiseFault_cmds (r : FaultReason) : (raiseFault r s).cmds = s.cmds := rfl
@[simp] theorem raiseFault_cc (r : FaultReason) : (raiseFault r s).cc = s.cc := rfl
@[simp] theorem raiseFault_mpc (r : FaultReason) : (raiseFault r s).mpc = s.mpc := rfl
@[simp] theorem raiseFault_tmp (r : FaultReason) : (raiseFault r s).tmp = s.tmp := rfl
@[simp] theorem raiseFault_obs (r : FaultReason) : (raiseFault r s).obs = s.obs := rfl
@[simp] theorem raiseFault_fault (r : FaultReason) : (raiseFault r s).fault = some { reason := r, cc := s.cc, mpc := s.mpc } := rfl
@[simp] theorem raiseFault_cls (r : FaultReason) : (raiseFault r s).cls = s.cls := rfl
@[simp] theorem raiseFault_txn (r : FaultReason) : (raiseFault r s).txn = s.txn := rfl
@[simp] theorem raiseFault_cr (r : FaultReason) : (raiseFault r s).cr = s.cr := rfl
@[simp] theorem raiseFault_sr1 (r : FaultReason) : (raiseFault r s).sr1 = s.sr1 := rfl
@[simp] theorem raiseFault_dr (r : FaultReason) : (raiseFault r s).dr = s.dr := rfl
@[simp] theorem raiseFault_phase (r : FaultReason) : (raiseFault r s).phase = s.phase := rfl
@[simp] theorem raiseFault_dir (r : FaultReason) : (raiseFault r s).dir = s.dir := rfl
@[simp] theorem raiseFault_arm (r : FaultReason) : (raiseFault r s).arm = s.arm := rfl
@[simp] theorem raiseFault_rxWindowOpen (r : FaultReason) : (raiseFault r s).rxWindowOpen = s.rxWindowOpen := rfl
@[simp] theorem raiseFault_device (r : FaultReason) : (raiseFault r s).device = s.device := rfl
@[simp] theorem raiseFault_ref (r : FaultReason) : (raiseFault r s).ref = s.ref := rfl
@[simp] theorem raiseFault_trace (r : FaultReason) : (raiseFault r s).trace = s.trace := rfl
@[simp] theorem raiseFault_draws (r : FaultReason) : (raiseFault r s).draws = s.draws := rfl
@[simp] theorem raiseFault_sched (r : FaultReason) : (raiseFault r s).sched = s.sched := rfl

/-! ### `popSched`: only the schedule advances -/

@[simp] theorem popSched_cfg : (popSched s).cfg = s.cfg := rfl
@[simp] theorem popSched_cmds : (popSched s).cmds = s.cmds := rfl
@[simp] theorem popSched_cc : (popSched s).cc = s.cc := rfl
@[simp] theorem popSched_mpc : (popSched s).mpc = s.mpc := rfl
@[simp] theorem popSched_tmp : (popSched s).tmp = s.tmp := rfl
@[simp] theorem popSched_obs : (popSched s).obs = s.obs := rfl
@[simp] theorem popSched_fault : (popSched s).fault = s.fault := rfl
@[simp] theorem popSched_cls : (popSched s).cls = s.cls := rfl
@[simp] theorem popSched_txn : (popSched s).txn = s.txn := rfl
@[simp] theorem popSched_cr : (popSched s).cr = s.cr := rfl
@[simp] theorem popSched_sr1 : (popSched s).sr1 = s.sr1 := rfl
@[simp] theorem popSched_dr : (popSched s).dr = s.dr := rfl
@[simp] theorem popSched_phase : (popSched s).phase = s.phase := rfl
@[simp] theorem popSched_dir : (popSched s).dir = s.dir := rfl
@[simp] theorem popSched_arm : (popSched s).arm = s.arm := rfl
@[simp] theorem popSched_rxWindowOpen : (popSched s).rxWindowOpen = s.rxWindowOpen := rfl
@[simp] theorem popSched_device : (popSched s).device = s.device := rfl
@[simp] theorem popSched_ref : (popSched s).ref = s.ref := rfl
@[simp] theorem popSched_trace : (popSched s).trace = s.trace := rfl
@[simp] theorem popSched_draws : (popSched s).draws = s.draws := rfl
@[simp] theorem popSched_sched : (popSched s).sched = s.sched.tail := rfl

/-! ### `record`: only the trace grows -/

@[simp] theorem record_cfg (e : BusEvent) : (record e s).cfg = s.cfg := rfl
@[simp] theorem record_cmds (e : BusEvent) : (record e s).cmds = s.cmds := rfl
@[simp] theorem record_cc (e : BusEvent) : (record e s).cc = s.cc := rfl
@[simp] theorem record_mpc (e : BusEvent) : (record e s).mpc = s.mpc := rfl
@[simp] theorem record_tmp (e : BusEvent) : (record e s).tmp = s.tmp := rfl
@[simp] theorem record_obs (e : BusEvent) : (record e s).obs = s.obs := rfl
@[simp] theorem record_fault (e : BusEvent) : (record e s).fault = s.fault := rfl
@[simp] theorem record_cls (e : BusEvent) : (record e s).cls = s.cls := rfl
@[simp] theorem record_txn (e : BusEvent) : (record e s).txn = s.txn := rfl
@[simp] theorem record_cr (e : BusEvent) : (record e s).cr = s.cr := rfl
@[simp] theorem record_sr1 (e : BusEvent) : (record e s).sr1 = s.sr1 := rfl
@[simp] theorem record_dr (e : BusEvent) : (record e s).dr = s.dr := rfl
@[simp] theorem record_phase (e : BusEvent) : (record e s).phase = s.phase := rfl
@[simp] theorem record_dir (e : BusEvent) : (record e s).dir = s.dir := rfl
@[simp] theorem record_arm (e : BusEvent) : (record e s).arm = s.arm := rfl
@[simp] theorem record_rxWindowOpen (e : BusEvent) : (record e s).rxWindowOpen = s.rxWindowOpen := rfl
@[simp] theorem record_device (e : BusEvent) : (record e s).device = s.device := rfl
@[simp] theorem record_ref (e : BusEvent) : (record e s).ref = s.ref := rfl
@[simp] theorem record_trace (e : BusEvent) : (record e s).trace = s.trace ++ [e] := rfl
@[simp] theorem record_draws (e : BusEvent) : (record e s).draws = s.draws := rfl
@[simp] theorem record_sched (e : BusEvent) : (record e s).sched = s.sched := rfl

/-! ### `setTxn`: only the grammar state is written (R151) -/

@[simp] theorem setTxn_cfg (t : Txn) : (setTxn t s).cfg = s.cfg := rfl
@[simp] theorem setTxn_cmds (t : Txn) : (setTxn t s).cmds = s.cmds := rfl
@[simp] theorem setTxn_cc (t : Txn) : (setTxn t s).cc = s.cc := rfl
@[simp] theorem setTxn_mpc (t : Txn) : (setTxn t s).mpc = s.mpc := rfl
@[simp] theorem setTxn_tmp (t : Txn) : (setTxn t s).tmp = s.tmp := rfl
@[simp] theorem setTxn_obs (t : Txn) : (setTxn t s).obs = s.obs := rfl
@[simp] theorem setTxn_fault (t : Txn) : (setTxn t s).fault = s.fault := rfl
@[simp] theorem setTxn_cls (t : Txn) : (setTxn t s).cls = s.cls := rfl
@[simp] theorem setTxn_txn (t : Txn) : (setTxn t s).txn = t := rfl
@[simp] theorem setTxn_cr (t : Txn) : (setTxn t s).cr = s.cr := rfl
@[simp] theorem setTxn_sr1 (t : Txn) : (setTxn t s).sr1 = s.sr1 := rfl
@[simp] theorem setTxn_dr (t : Txn) : (setTxn t s).dr = s.dr := rfl
@[simp] theorem setTxn_phase (t : Txn) : (setTxn t s).phase = s.phase := rfl
@[simp] theorem setTxn_dir (t : Txn) : (setTxn t s).dir = s.dir := rfl
@[simp] theorem setTxn_arm (t : Txn) : (setTxn t s).arm = s.arm := rfl
@[simp] theorem setTxn_rxWindowOpen (t : Txn) : (setTxn t s).rxWindowOpen = s.rxWindowOpen := rfl
@[simp] theorem setTxn_device (t : Txn) : (setTxn t s).device = s.device := rfl
@[simp] theorem setTxn_ref (t : Txn) : (setTxn t s).ref = s.ref := rfl
@[simp] theorem setTxn_trace (t : Txn) : (setTxn t s).trace = s.trace := rfl
@[simp] theorem setTxn_draws (t : Txn) : (setTxn t s).draws = s.draws := rfl
@[simp] theorem setTxn_sched (t : Txn) : (setTxn t s).sched = s.sched := rfl

/-! ### `logTmp`: only the log grows (R151) -/

@[simp] theorem logTmp_cfg : (logTmp s).cfg = s.cfg := rfl
@[simp] theorem logTmp_cmds : (logTmp s).cmds = s.cmds := rfl
@[simp] theorem logTmp_cc : (logTmp s).cc = s.cc := rfl
@[simp] theorem logTmp_mpc : (logTmp s).mpc = s.mpc := rfl
@[simp] theorem logTmp_tmp : (logTmp s).tmp = s.tmp := rfl
@[simp] theorem logTmp_obs : (logTmp s).obs = s.obs ++ [zext16 s.tmp] := rfl
@[simp] theorem logTmp_fault : (logTmp s).fault = s.fault := rfl
@[simp] theorem logTmp_cls : (logTmp s).cls = s.cls := rfl
@[simp] theorem logTmp_txn : (logTmp s).txn = s.txn := rfl
@[simp] theorem logTmp_cr : (logTmp s).cr = s.cr := rfl
@[simp] theorem logTmp_sr1 : (logTmp s).sr1 = s.sr1 := rfl
@[simp] theorem logTmp_dr : (logTmp s).dr = s.dr := rfl
@[simp] theorem logTmp_phase : (logTmp s).phase = s.phase := rfl
@[simp] theorem logTmp_dir : (logTmp s).dir = s.dir := rfl
@[simp] theorem logTmp_arm : (logTmp s).arm = s.arm := rfl
@[simp] theorem logTmp_rxWindowOpen : (logTmp s).rxWindowOpen = s.rxWindowOpen := rfl
@[simp] theorem logTmp_device : (logTmp s).device = s.device := rfl
@[simp] theorem logTmp_ref : (logTmp s).ref = s.ref := rfl
@[simp] theorem logTmp_trace : (logTmp s).trace = s.trace := rfl
@[simp] theorem logTmp_draws : (logTmp s).draws = s.draws := rfl
@[simp] theorem logTmp_sched : (logTmp s).sched = s.sched := rfl

/-! ### `completeRaw`: log, class and command counter (R111) -/

@[simp] theorem completeRaw_cfg (vs : List Half) : (completeRaw vs s).cfg = s.cfg := rfl
@[simp] theorem completeRaw_cmds (vs : List Half) : (completeRaw vs s).cmds = s.cmds := rfl
@[simp] theorem completeRaw_cc (vs : List Half) : (completeRaw vs s).cc = s.cc + 1 := rfl
@[simp] theorem completeRaw_mpc (vs : List Half) : (completeRaw vs s).mpc = s.mpc := rfl
@[simp] theorem completeRaw_tmp (vs : List Half) : (completeRaw vs s).tmp = s.tmp := rfl
@[simp] theorem completeRaw_obs (vs : List Half) : (completeRaw vs s).obs = s.obs ++ vs := rfl
@[simp] theorem completeRaw_fault (vs : List Half) : (completeRaw vs s).fault = s.fault := rfl
@[simp] theorem completeRaw_cls (vs : List Half) : (completeRaw vs s).cls = some .raw := rfl
@[simp] theorem completeRaw_txn (vs : List Half) : (completeRaw vs s).txn = s.txn := rfl
@[simp] theorem completeRaw_cr (vs : List Half) : (completeRaw vs s).cr = s.cr := rfl
@[simp] theorem completeRaw_sr1 (vs : List Half) : (completeRaw vs s).sr1 = s.sr1 := rfl
@[simp] theorem completeRaw_dr (vs : List Half) : (completeRaw vs s).dr = s.dr := rfl
@[simp] theorem completeRaw_phase (vs : List Half) : (completeRaw vs s).phase = s.phase := rfl
@[simp] theorem completeRaw_dir (vs : List Half) : (completeRaw vs s).dir = s.dir := rfl
@[simp] theorem completeRaw_arm (vs : List Half) : (completeRaw vs s).arm = s.arm := rfl
@[simp] theorem completeRaw_rxWindowOpen (vs : List Half) : (completeRaw vs s).rxWindowOpen = s.rxWindowOpen := rfl
@[simp] theorem completeRaw_device (vs : List Half) : (completeRaw vs s).device = s.device := rfl
@[simp] theorem completeRaw_ref (vs : List Half) : (completeRaw vs s).ref = s.ref := rfl
@[simp] theorem completeRaw_trace (vs : List Half) : (completeRaw vs s).trace = s.trace := rfl
@[simp] theorem completeRaw_draws (vs : List Half) : (completeRaw vs s).draws = s.draws := rfl
@[simp] theorem completeRaw_sched (vs : List Half) : (completeRaw vs s).sched = s.sched := rfl

end Sys2Proof.Machine
end

