-- ==== Sys2Proof/Laws/Memory.lean ====
section
/-! SUPPORT. The device's memory: every operation keeps the canonical form (R50, R141). -/

namespace Sys2Proof.Machine

/-- Every cell of a written memory is an old cell or the cell written, and the latter only with a value worth listing. -/
theorem Memory.mem_write {m : Memory} {a : Nat} {v : Byte} {c : Host.Cell} (h : c ∈ Memory.write m a v) :
    c ∈ m ∨ (c = (a, v) ∧ v ≠ Memory.unlisted) := by
  induction m with
  | nil =>
    simp only [Memory.write] at h
    split at h <;> simp_all
  | cons x m ih =>
    simp only [Memory.write] at h
    split_ifs at h with h1 h2 h3 h4
    · exact .inl h
    · rcases List.mem_cons.mp h with rfl | h
      · exact .inr ⟨rfl, h2⟩
      · exact .inl h
    · exact .inl (List.mem_cons_of_mem _ h)
    · rcases List.mem_cons.mp h with rfl | h
      · exact .inr ⟨rfl, h4⟩
      · exact .inl (List.mem_cons_of_mem _ h)
    · rcases List.mem_cons.mp h with rfl | h
      · exact .inl (List.mem_cons_self ..)
      · exact (ih h).imp_left (List.mem_cons_of_mem _)

/-- A write keeps the sub-addresses strictly rising. -/
theorem Memory.pairwise_write {m : Memory} {a : Nat} {v : Byte} (h : m.Pairwise fun x y => x.1 < y.1) :
    (Memory.write m a v).Pairwise fun x y => x.1 < y.1 := by
  induction m with
  | nil =>
    simp only [Memory.write]
    split <;> simp
  | cons x m ih =>
    obtain ⟨hx, hm⟩ := List.pairwise_cons.mp h
    simp only [Memory.write]
    split_ifs with h1 h2 h3 h4
    · exact h
    · refine List.pairwise_cons.mpr ⟨fun c hc => ?_, h⟩
      rcases List.mem_cons.mp hc with rfl | hc
      · exact h1
      · exact h1.trans (hx c hc)
    · exact hm
    · exact List.pairwise_cons.mpr ⟨fun c hc => h3 ▸ hx c hc, hm⟩
    · refine List.pairwise_cons.mpr ⟨fun c hc => ?_, ih hm⟩
      rcases Memory.mem_write hc with hc | ⟨rfl, -⟩
      · exact hx c hc
      · show x.1 < a
        omega

/-- A write at a sub-address keeps the canonical form. -/
theorem Memory.write_wf {m : Memory} {a : Nat} {v : Byte} (h : Memory.wf m) (ha : a < 256) :
    Memory.wf (Memory.write m a v) := by
  refine ⟨Memory.pairwise_write h.1, fun c hc => ?_⟩
  rcases Memory.mem_write hc with hc | ⟨rfl, hv⟩
  · exact h.2 c hc
  · exact ⟨ha, hv⟩

/-- Taking a data byte keeps the reference device's memory canonical (R144). -/
theorem refAfterData_wf {d : RefDevice} {b : Byte} (h : Memory.wf d.regs) : Memory.wf (refAfterData b d).regs := by
  unfold refAfterData
  split_ifs
  · exact h
  · exact Memory.write_wf h d.ptr.isLt
  · exact h

/-- Every device query keeps the reference device's memory canonical (R142–R145). -/
theorem onReference_wf {f : RefDevice → RefDevice} {s : State} (h : Memory.wf s.ref.regs)
    (hf : Memory.wf s.ref.regs → Memory.wf (f s.ref).regs) : Memory.wf (onReference f s).ref.regs := by
  unfold onReference
  split
  · exact h
  · exact hf h

/-- Reset memory is canonical. -/
theorem reset_memory_wf : Memory.wf State.reset.ref.regs := by decide

end Sys2Proof.Machine
end

