-- ==== Sys2Proof/Laws/Ops.lean ====
section
/-! SUPPORT. What each shared operation can do, said once: register words bit by bit, accesses, polls, and the two ways a command
executes. -/

namespace Sys2Proof.Machine

/-! ### Register words -/

/-- `putBit` changes one bit. -/
theorem getLsbD_putBit (v : Half) (i j : Fin 16) (x : Bool) :
    (putBit v i x).getLsbD j.val = if j = i then x else v.getLsbD j.val := by
  have hi := i.isLt
  have hj := j.isLt
  by_cases h : j = i
  · subst h
    cases x <;> simp [putBit, hj]
  · have h' : j.val ≠ i.val := fun e => h (Fin.ext e)
    have h1 : (1#16 <<< i.val).getLsbD j.val = false := by
      rw [BitVec.getLsbD_shiftLeft, BitVec.getLsbD_one]
      by_cases hlt : j.val < i.val
      · simp [hlt]
      · simp [show j.val - i.val ≠ 0 by omega]
    have h2 : ((BitVec.ofBool x).setWidth 16 <<< i.val).getLsbD j.val = false := by
      rw [BitVec.getLsbD_shiftLeft, BitVec.getLsbD_setWidth, BitVec.getLsbD_ofBool]
      by_cases hlt : j.val < i.val
      · simp [hlt]
      · simp [show j.val - i.val ≠ 0 by omega]
    rw [putBit, BitVec.getLsbD_or, BitVec.getLsbD_and, BitVec.getLsbD_not, h1, h2]
    simp [h, hj]

/-- The word of SR1 shows each flag at its position, and the draw everywhere else (R26). -/
theorem getLsbD_sr1Word (b : Binding) (f : StatusFlags) (v : Half) (j : Fin 16) :
    (sr1Word b f v).getLsbD j.val = sr1Bit b f v j := by
  simp only [sr1Word, sr1Bit, getLsbD_putBit]

/-- The word of CR shows each field at its position, and the other bits everywhere else (R101). -/
theorem getLsbD_crWord (b : Binding) (cr : ControlReg) (j : Fin 16) :
    (crWord b cr).getLsbD j.val = crBit b cr j := by
  simp only [crWord, crBit, getLsbD_putBit]

/-- `regBit` is the bit of the word a read returns. -/
theorem regBit_eq (r : Reg) (s : State) (j : Fin 16) : regBit r s j = (regValue r s).getLsbD j.val := by
  cases r
  · exact (getLsbD_crWord ..).symm
  · rfl
  · exact (getLsbD_sr1Word ..).symm
  · rfl

/-- In a well-formed binding, the condition a poll tests on the word is the named flag (R120). -/
theorem cond_holds_eq (c : Cond) (s : State) (h : s.cfg.binding.wellFormed = true) : c.holds s = condMet c s := by
  simp only [Binding.wellFormed, Binding.crDistinct, Binding.sr1Distinct, Bool.and_eq_true, decide_eq_true_eq,
    List.nodup_cons, List.mem_cons, List.not_mem_nil, or_false, not_or] at h
  obtain ⟨⟨⟨⟨⟨h1, h2, h3⟩, ⟨h4, h5⟩, h6, -⟩, ⟨⟨h7, h8, h9, h10⟩, ⟨h11, h12, h13⟩, ⟨h14, h15⟩, h16, -⟩⟩, -⟩, -⟩ := h
  cases c <;> simp only [Cond.holds, Cond.reg, regBit, condMet, sr1Bit, crBit, if_true, if_false, *]

/-! ### Accesses -/

/-- An access has the effect of R101–R109 where it is admitted and none elsewhere. -/
theorem accessEffect_eq (a : Access) (s : State) :
    accessEffect a s = if admitted a s then some (afterAccess a s) else none := by
  cases a with
  | read r =>
    cases r with
    | cr => rfl
    | sr1 => rfl
    | sr2 =>
      simp only [accessEffect, sr2Read, admitted, afterAccess, afterRead, afterReadSr2, if_true]
      by_cases h1 : s.arm.addr = true <;> by_cases h2 : s.sr1.addr = true <;> by_cases hd : s.dir = true <;>
        simp [h1, h2, hd, closeWindow]
    | dr =>
      simp only [accessEffect, drRead, admitted, afterAccess, afterRead, afterReadDr, if_true]
      split <;> rfl
  | setStart =>
    simp only [accessEffect, startWrite, admitted, afterAccess, afterSetStart, closeWindow]
    by_cases h1 : s.phase = .idle <;> by_cases h2 : s.cr.stop = true <;> simp [h1, h2]
  | setStop =>
    simp only [accessEffect, stopWrite, admitted, afterAccess, afterSetStop, closeWindow]
    by_cases h1 : s.phase = .mtBtf <;> by_cases h3 : s.phase = .mrDone <;>
      by_cases h2 : s.cr.start = true <;> simp [h1, h2, h3]
  | setAck => rfl
  | clrAck => rfl
  | wrDr b =>
    cases h : s.phase <;> simp [accessEffect, drWrite, admitted, afterAccess, afterWrDr, closeWindow, h]

/-- An access never touches the parameters, the stream, the counters, the log, the fault, the class, the grammar state, the device or the
schedule (R101–R109). -/
theorem afterAccess_frame (a : Access) (s : State) :
    (afterAccess a s).cfg = s.cfg ∧ (afterAccess a s).cmds = s.cmds ∧ (afterAccess a s).cc = s.cc ∧
    (afterAccess a s).mpc = s.mpc ∧ (afterAccess a s).tmp = s.tmp ∧ (afterAccess a s).obs = s.obs ∧
    (afterAccess a s).fault = s.fault ∧ (afterAccess a s).cls = s.cls ∧ (afterAccess a s).txn = s.txn ∧
    (afterAccess a s).device = s.device ∧ (afterAccess a s).ref = s.ref ∧ (afterAccess a s).trace = s.trace ∧
    (afterAccess a s).sched = s.sched := by
  cases a with
  | read r => cases r <;> simp [afterAccess, afterRead, afterReadCr, afterReadSr1, afterReadSr2, afterReadDr] <;> split <;> simp
  | setStart => simp [afterAccess, afterSetStart]
  | setStop => simp [afterAccess, afterSetStop]
  | setAck => simp [afterAccess, afterSetAck]
  | clrAck => simp [afterAccess, afterClrAck]
  | wrDr b => simp only [afterAccess, afterWrDr]; split <;> simp

/-! ### Commands -/

/-- An agent's step answers a next state only while the machine runs. -/
theorem whenRunning_of_running {s : State} {k : Host.Outcome State Fault Refusal} (h : running s = true) :
    whenRunning s k = k := by
  simp only [running, Bool.and_eq_true, beq_iff_eq, Bool.not_eq_true'] at h
  simp [whenRunning, h.1, h.2]

/-- What `whenRunning` answers. -/
theorem whenRunning_next {s t : State} {k : Host.Outcome State Fault Refusal} (h : whenRunning s k = .next t) :
    running s = true ∧ k = .next t := by
  unfold whenRunning at h
  split at h
  · cases h
  · split at h
    · cases h
    · simp_all [running]

/-- All a raw command can do when it answers a next state (R111, R202). -/
theorem rawCommand_next {o : Op} {a : Access} {s t : State} (h : rawCommand o a s = .next t) :
    running s = true ∧ s.mpc = 0 ∧
      ((classAdmits .raw s = true ∧ admitted a s = true ∧ t = completeRaw (loggedBy a s) (afterAccess a s)) ∨
       (classAdmits .raw s = true ∧ admitted a s = false ∧ t = raiseFault (.unmodelledAccess a s.phase) s) ∨
       (classAdmits .raw s = false ∧ t = raiseFault (.mixedCommandClass o.code) s)) := by
  obtain ⟨hr, h⟩ := whenRunning_next h
  split_ifs at h with h1 h2
  · cases h
    refine ⟨hr, not_not.mp h1, ?_⟩
    cases ha : admitted a s <;> simp [access, ha, h2]
  · cases h
    exact ⟨hr, not_not.mp h1, .inr (.inr ⟨by simpa using h2, rfl⟩)⟩

/-- All one host action of a Txn command can do when it answers a next state (R151, R202). -/
theorem txnCommand_next {o : Op} {acts : List Action} {complete : State → State} {s t : State}
    (h : txnCommand o acts complete s = .next t) :
    running s = true ∧
      ((s.mpc = 0 ∧ classAdmits .txn s = false ∧ t = raiseFault (.mixedCommandClass o.code) s) ∨
       (s.mpc = 0 ∧ classAdmits .txn s = true ∧ legalIn o s.txn = false ∧
          t = raiseFault (.sequenceViolation o.code s.txn) s) ∨
       ((s.mpc = 0 → classAdmits .txn s = true ∧ legalIn o s.txn = true) ∧
          ∃ act, acts[s.mpc]? = some act ∧ t = performAction act (s.mpc + 1 == acts.length) complete s)) := by
  obtain ⟨hr, h⟩ := whenRunning_next h
  refine ⟨hr, ?_⟩
  split_ifs at h with h1 h2
  · cases h
    exact .inl ⟨h1.1, h1.2, rfl⟩
  · cases h
    exact .inr (.inl ⟨h2.1, by simp_all, h2.2, rfl⟩)
  · refine .inr (.inr ⟨fun h0 => by simp_all, ?_⟩)
    split at h
    · cases h
    · cases h
      exact ⟨_, ‹_›, rfl⟩

/-- All an action of an action list can do: nothing but `UnmodelledAccess`, or its access and then the counters where it is over. -/
theorem performAction_cases (act : Action) (last : Bool) (complete : State → State) (s : State) :
    (admitted act.accessOf s = false ∧
       performAction act last complete s = raiseFault (.unmodelledAccess act.accessOf s.phase) s) ∨
    (admitted act.accessOf s = true ∧
       performAction act last complete s =
         let t := { afterAccess act.accessOf s with
           tmp := act.tmpAfter s, cls := if s.mpc = 0 then some .txn else (afterAccess act.accessOf s).cls }
         if act.over s then advance last complete t else t) := by
  cases h : admitted act.accessOf s
  · exact .inl ⟨rfl, by simp [performAction, access, h]⟩
  · exact .inr ⟨rfl, by simp [performAction, access, h]⟩

/-- A line of an action list has the effect its rules give it (R101–R109, R120). -/
theorem lineEffect_eq (act : Action) (s : State) (h : s.cfg.binding.wellFormed = true) :
    lineEffect act s =
      if admitted act.accessOf s then some ({ afterAccess act.accessOf s with tmp := act.tmpAfter s }, act.over s)
      else none := by
  cases act with
  | access a =>
    simp only [lineEffect, accessEffect_eq, Action.accessOf, Action.tmpAfter, Action.over]
    by_cases ha : admitted a s = true
    · simp [ha, ← (afterAccess_frame a s).2.2.2.2.1]
    · simp [ha]
  | poll c =>
    have hc := cond_holds_eq c s h
    cases c <;>
      simp [lineEffect, Action.accessOf, Action.tmpAfter, Action.over, Cond.reg, admitted, afterAccess, afterRead, afterReadSr1,
        afterReadCr, closeWindow, sr1Read, armedBy, hc]
  | readTmp =>
    simp only [lineEffect, Action.accessOf, Action.tmpAfter, Action.over, admitted, afterAccess, afterRead, afterReadDr, drRead, drByte,
      regValue, lowByte, zext16, closeWindow, if_true]
    split <;> simp

end Sys2Proof.Machine
end

