-- ==== Sys2Proof/Laws/PerInstr.lean ====
section
/-! SUPPORT. Facts about every command as syntax, one lemma per constructor of `Instr`. Family `TableRow`: the word of the command has the
fixed fields of its row in spec/opcode_table.json (R71, R73). -/

namespace Sys2Proof.Laws

/-- The four fields of a word put together by format C (R71). -/
theorem word_fields (z b a o : Byte) :
    wordOp (z ++ b ++ a ++ o) = o ∧ wordA (z ++ b ++ a ++ o) = a ∧ wordB (z ++ b ++ a ++ o) = b ∧
      wordZ (z ++ b ++ a ++ o) = z := by
  refine ⟨?_, ?_, ?_, ?_⟩ <;> apply BitVec.eq_of_getLsbD_eq <;> intro i hi <;>
    simp only [wordOp, wordA, wordB, wordZ, BitVec.getLsbD_extractLsb', BitVec.getLsbD_append] <;>
    simp only [hi, decide_true, Bool.true_and] <;> (split_ifs <;> first | omega | (congr 1; omega))

/-- The word of `i` has OP `op`, Z = 0, and 0 in every operand byte the row of `op` does not use. -/
def TableRow.rowOf (op : Byte) (usesA usesB : Bool) (i : Instr) : Prop :=
  wordOp (encode i) = op ∧ wordZ (encode i) = 0 ∧ (usesA = false → wordA (encode i) = 0) ∧ (usesB = false → wordB (encode i) = 0)

/-- The row of the table `i` belongs to, with the fixed fields spec/opcode_table.json gives it. -/
def TableRow.Statement : Instr → Prop
  | .beginTxn => TableRow.rowOf 0x01 false false .beginTxn
  | .address a => TableRow.rowOf 0x02 true false (.address a)
  | .writeByte b => TableRow.rowOf 0x03 true false (.writeByte b)
  | .readByte => TableRow.rowOf 0x04 false false .readByte
  | .endTxn => TableRow.rowOf 0x05 false false .endTxn
  | .readReg sub => TableRow.rowOf 0x10 true false (.readReg sub)
  | .writeReg sub value => TableRow.rowOf 0x11 true true (.writeReg sub value)
  | .rdCr => TableRow.rowOf 0x20 false false .rdCr
  | .setStart => TableRow.rowOf 0x21 false false .setStart
  | .setStop => TableRow.rowOf 0x22 false false .setStop
  | .setAck => TableRow.rowOf 0x23 false false .setAck
  | .clrAck => TableRow.rowOf 0x24 false false .clrAck
  | .rdSr1 => TableRow.rowOf 0x25 false false .rdSr1
  | .rdSr2 => TableRow.rowOf 0x26 false false .rdSr2
  | .wrDr b => TableRow.rowOf 0x27 true false (.wrDr b)
  | .rdDr => TableRow.rowOf 0x28 false false .rdDr

/-- A command's word has the fields it was put together from. -/
theorem rowOf_encode {op : Byte} {usesA usesB : Bool} {i : Instr} (ho : i.op.code = op) (ha : usesA = false → i.fieldA = 0)
    (hb : usesB = false → i.fieldB = 0) : TableRow.rowOf op usesA usesB i := by
  obtain ⟨h1, h2, h3, h4⟩ := word_fields 0 i.fieldB i.fieldA i.op.code
  exact ⟨h1.trans ho, h4, fun h => h2.trans (ha h), fun h => h3.trans (hb h)⟩

theorem TableRow.beginTxn : TableRow.Statement .beginTxn := rowOf_encode rfl (by simp [Instr.fieldA]) (by simp [Instr.fieldB])
theorem TableRow.address (a : Byte) : TableRow.Statement (.address a) := rowOf_encode rfl (by simp [Instr.fieldA]) (by simp [Instr.fieldB])
theorem TableRow.writeByte (b : Byte) : TableRow.Statement (.writeByte b) := rowOf_encode rfl (by simp [Instr.fieldA]) (by simp [Instr.fieldB])
theorem TableRow.readByte : TableRow.Statement .readByte := rowOf_encode rfl (by simp [Instr.fieldA]) (by simp [Instr.fieldB])
theorem TableRow.endTxn : TableRow.Statement .endTxn := rowOf_encode rfl (by simp [Instr.fieldA]) (by simp [Instr.fieldB])
theorem TableRow.readReg (sub : Byte) : TableRow.Statement (.readReg sub) := rowOf_encode rfl (by simp [Instr.fieldA]) (by simp [Instr.fieldB])
theorem TableRow.writeReg (sub value : Byte) : TableRow.Statement (.writeReg sub value) := rowOf_encode rfl (by simp [Instr.fieldA]) (by simp [Instr.fieldB])
theorem TableRow.rdCr : TableRow.Statement .rdCr := rowOf_encode rfl (by simp [Instr.fieldA]) (by simp [Instr.fieldB])
theorem TableRow.setStart : TableRow.Statement .setStart := rowOf_encode rfl (by simp [Instr.fieldA]) (by simp [Instr.fieldB])
theorem TableRow.setStop : TableRow.Statement .setStop := rowOf_encode rfl (by simp [Instr.fieldA]) (by simp [Instr.fieldB])
theorem TableRow.setAck : TableRow.Statement .setAck := rowOf_encode rfl (by simp [Instr.fieldA]) (by simp [Instr.fieldB])
theorem TableRow.clrAck : TableRow.Statement .clrAck := rowOf_encode rfl (by simp [Instr.fieldA]) (by simp [Instr.fieldB])
theorem TableRow.rdSr1 : TableRow.Statement .rdSr1 := rowOf_encode rfl (by simp [Instr.fieldA]) (by simp [Instr.fieldB])
theorem TableRow.rdSr2 : TableRow.Statement .rdSr2 := rowOf_encode rfl (by simp [Instr.fieldA]) (by simp [Instr.fieldB])
theorem TableRow.wrDr (b : Byte) : TableRow.Statement (.wrDr b) := rowOf_encode rfl (by simp [Instr.fieldA]) (by simp [Instr.fieldB])
theorem TableRow.rdDr : TableRow.Statement .rdDr := rowOf_encode rfl (by simp [Instr.fieldA]) (by simp [Instr.fieldB])

end Sys2Proof.Laws
end

