-- ==== Sys2Proof/Laws/Step.lean ====
section
/-! SUPPORT. What one step can do, said once: a host action or the enabled controller step (R14, R59, R135). -/

namespace Sys2Proof.Machine

/-- The step found is enabled (R135). -/
theorem enabledStep_enabled {s : State} {c : ControllerStep} (h : enabledStep s = some c) : enabled c s = true := by
  simpa using List.find?_some h

/-- No step is found exactly where none is enabled (R135). -/
theorem enabledStep_none {s : State} : enabledStep s = none ↔ ∀ c, enabled c s = false := by
  simp only [enabledStep, List.find?_eq_none, List.mem_cons, List.not_mem_nil, or_false]
  constructor
  · intro h c
    cases c <;> simpa using h _ (by simp)
  · rintro h c -
    simp [h c]

/-- A schedule does not enable a controller step. -/
theorem enabledStep_popSched (s : State) : enabledStep (popSched s) = enabledStep s := rfl

/-- All a host action can do when it answers a next state (R70, R74, R207). -/
theorem hostAction_next {s t : State} (h : hostAction s = .next t) :
    (∃ w i, fetch s = some w ∧ decode w = .ok i ∧ exec i s = .next t) ∨
    (∃ w e, fetch s = some w ∧ decode w = .error e ∧ s.mpc = 0 ∧ t = raiseFault (.illegalCommand w) s) ∨
    (fetch s = none ∧ s.txn ≠ .idle ∧ t = raiseFault (.openTransactionAtEnd s.txn) s) := by
  unfold hostAction at h
  split at h
  · rename_i w hw
    split at h
    · exact .inl ⟨w, _, hw, ‹_›, h⟩
    · split_ifs at h with h0
      cases h
      exact .inr (.inl ⟨w, _, hw, ‹_›, h0, rfl⟩)
  · split_ifs at h with h0
    cases h
    exact .inr (.inr ⟨‹_›, h0, rfl⟩)

/-- All one step can do when it answers a next state. -/
theorem step_next {s t : State} (h : step s = .next t) :
    running s = true ∧
      ((mover s = some .host ∧ hostAction (popSched s) = .next t) ∨
       (mover s = some .controller ∧ ∃ c, enabledStep s = some c ∧ t = runStep c (popSched s))) := by
  obtain ⟨hr, h⟩ := whenRunning_next h
  refine ⟨hr, ?_⟩
  split at h
  · exact .inl ⟨‹_›, h⟩
  · refine .inr ⟨‹_›, ?_⟩
    unfold controllerAction at h
    rw [enabledStep_popSched] at h
    split at h
    · cases h
      exact ⟨_, ‹_›, rfl⟩
    · cases h
  · cases h

end Sys2Proof.Machine
end

