-- ==== Sys2Proof/Tests/Slice0.lean ====
section
/-! SUPPORT. Small tests of one step each, their expected results taken from the spec's words, worked examples and test vectors
(95_test_vectors.md, named V-… below), the smoke test of WellFormed, and a witness for the hypotheses of every statement. -/

namespace Sys2Proof.Tests

open Sys2Proof Sys2Proof.Machine

/-! ### Small states to test on -/

/-- The parameters of 95_test_vectors.md: DEV_ADDR7 = 0x1E, the default binding, CR_OTHER = 0, a working bus, HostFirst. -/
def demoCfg : Config where
  devAddr7 := 0x1E
  sensorMap := default
  sensorConfig := default
  binding := Binding.stm32f1
  i2cBase := 0x40005400
  sclRate := 0
  rxAckWindow := .hostFirst
  hardened := false
  ackInit := true
  crOther := 0
  busStuck := false

/-- The reference device with regs[0x03] = 0x01 (program P2 of 95_test_vectors.md). -/
def demoRef : RefDevice := { regs := [(3, 0x01)], ptr := 0, idx := 0, sel := false, present := true }

/-- Clean entry with these command words, the host to move. -/
def demo (ws : List Word) : State := launch demoCfg .reference [(3, 0x01)] true ws [.host]

/-- The state with this phase and these flags; a latch is armed exactly where its flag is set. -/
def at_ (p : Phase) (f : StatusFlags) (s : State) : State := { s with phase := p, sr1 := f, arm := armedBy f }

/-- The same with nothing armed. -/
def atUnarmed (p : Phase) (f : StatusFlags) (s : State) : State := { s with phase := p, sr1 := f }

/-- The state with a command at action `k` and this grammar state. -/
def midway (k : Nat) (t : Txn) (s : State) : State := { s with mpc := k, txn := t, cls := some .txn }

def sbSet : StatusFlags := { noFlags with sb := true }
def addrSet : StatusFlags := { noFlags with addr := true }
def btfSet : StatusFlags := { noFlags with btf := true }
def rxneSet : StatusFlags := { noFlags with rxne := true }
def afSet : StatusFlags := { noFlags with af := true }

/-- A field of the next state, none where there is none. -/
def look {α : Type} (f : State → α) (o : Host.Outcome State Fault Refusal) : Option α :=
  match o with
  | .next t => some (f t)
  | .fault _ => none
  | .refused _ => none

/-- The reason of the fault the next state records. -/
def reasonOf (o : Host.Outcome State Fault Refusal) : Option FaultReason := (look (fun t => t.fault.map (·.reason)) o).join

/-! ### WellFormed: each check refuses an ill-formed term -/

theorem test_demo_parameters_are_well_formed : demoCfg.wellFormed = true := by decide
theorem test_default_binding_is_well_formed : Binding.stm32f1.wellFormed = true := by decide
theorem test_two_cr_fields_at_one_bit : { Binding.stm32f1 with stop := 8 }.crDistinct = false := by decide
theorem test_two_flags_at_one_bit : { Binding.stm32f1 with af := 6 }.sr1Distinct = false := by decide
theorem test_two_registers_at_one_offset : { Binding.stm32f1 with drOffset := 0x18 }.offsetsDistinct = false := by decide
theorem test_register_between_words : { Binding.stm32f1 with drOffset := 0x12 }.offsetsAligned = false := by decide
theorem test_ill_formed_binding : { Binding.stm32f1 with ack := 9 }.wellFormed = false := by decide
theorem test_cr_other_on_a_field : crOtherClear Binding.stm32f1 0x0400 = false := by decide
theorem test_base_between_words : { demoCfg with i2cBase := 0x40005402 }.baseAligned = false := by decide
theorem test_hardened_parameters : { demoCfg with hardened := true }.wellFormed = false := by decide
theorem test_operand_256 : operandInRange 256 = false := by decide
theorem test_operand_255 : operandInRange 255 = true := by decide
theorem test_instr_well_formed : (Instr.writeReg 0x00 0xFF).wellFormed = true := by decide

/-! ### Decode: every constructor, its word written out bit by bit from R71 and R73: Z, B, A, OP -/

theorem test_decode_begin : decode 0b00000000_00000000_00000000_00000001 = .ok .beginTxn := by decide
theorem test_decode_address : decode 0b00000000_00000000_00111100_00000010 = .ok (.address 0x3C) := by decide
theorem test_decode_write_byte : decode 0b00000000_00000000_10000001_00000011 = .ok (.writeByte 0x81) := by decide
theorem test_decode_read_byte : decode 0b00000000_00000000_00000000_00000100 = .ok .readByte := by decide
theorem test_decode_end : decode 0b00000000_00000000_00000000_00000101 = .ok .endTxn := by decide
theorem test_decode_read_reg : decode 0b00000000_00000000_00000011_00010000 = .ok (.readReg 0x03) := by decide
theorem test_decode_write_reg : decode 0b00000000_01110000_00000001_00010001 = .ok (.writeReg 0x01 0x70) := by decide
theorem test_decode_rd_cr : decode 0b00000000_00000000_00000000_00100000 = .ok .rdCr := by decide
theorem test_decode_set_start : decode 0b00000000_00000000_00000000_00100001 = .ok .setStart := by decide
theorem test_decode_set_stop : decode 0b00000000_00000000_00000000_00100010 = .ok .setStop := by decide
theorem test_decode_set_ack : decode 0b00000000_00000000_00000000_00100011 = .ok .setAck := by decide
theorem test_decode_clr_ack : decode 0b00000000_00000000_00000000_00100100 = .ok .clrAck := by decide
theorem test_decode_rd_sr1 : decode 0b00000000_00000000_00000000_00100101 = .ok .rdSr1 := by decide
theorem test_decode_rd_sr2 : decode 0b00000000_00000000_00000000_00100110 = .ok .rdSr2 := by decide
theorem test_decode_wr_dr : decode 0b00000000_00000000_11111111_00100111 = .ok (.wrDr 0xFF) := by decide
theorem test_decode_rd_dr : decode 0b00000000_00000000_00000000_00101000 = .ok .rdDr := by decide

/-- V-D1 … V-D13: the illegal words of the decoder's vectors. -/
theorem test_decode_illegal :
    decode 0x00000000 = .error (.reservedOpcode 0x00) ∧ decode 0x00000101 = .error (.unusedOperandA 0x01) ∧
    decode 0x01000001 = .error (.reservedField 0x01) ∧ decode 0x00013C02 = .error (.unusedOperandB 0x01) ∧
    decode 0x0000000F = .error (.reservedOpcode 0x0F) ∧ decode 0x00000012 = .error (.reservedOpcode 0x12) ∧
    decode 0x00000029 = .error (.reservedOpcode 0x29) ∧ decode 0xFF000011 = .error (.reservedField 0xFF) ∧
    decode 0x00000128 = .error (.unusedOperandA 0x01) := by decide

/-- R79: encodings of the worked table. -/
theorem test_encode_write_reg : encode (.writeReg 0x00 0x70) = 0x00700011 := by decide
theorem test_decode_table_word : decodeTableWord 32 0x3C02 = some (.address 0x3C) ∧ decodeTableWord 32 0x100 = none := by decide

/-! ### Assembler and consumer (R77, R78, R182) -/

/-- Program P2 of 95_test_vectors.md, two of its lines. -/
theorem test_assemble_lines :
    assembleLines demoCfg ["WRITE_BYTE 0x03  ; sub-address".toList, "ADDR_R".toList] = .ok [0x00000303, 0x00003D02] := by decide
theorem test_assemble_two_operands :
    assembleLines demoCfg ["WRITE_REG 0, 0x70".toList] = .ok [0x00700011] := by decide
theorem test_assemble_operand_out_of_range :
    assembleLines demoCfg ["READ_REG 256".toList] = .error (.operandOutOfRange 256) := by decide
/-- V-A2, V-A5, V-A6. -/
theorem test_axis_bytes : rawAxis 0x12 0x34 = 13330 ∧ rawAxis 0xFF 0xFF = -1 ∧ rawAxis 0x00 0x80 = -32768 := by decide

/-! ### Register words -/

/-- V-R7a, V-R7c: the modelled bits of an SR1 word, whatever the draw. -/
theorem test_sr1_word :
    sr1Word Binding.stm32f1 sbSet 0xFFFF &&& 0x0447 = 0x0001 ∧ sr1Word Binding.stm32f1 afSet 0x0000 &&& 0x0447 = 0x0400 := by decide
/-- The example of R101. -/
theorem test_cr_word :
    crWord Binding.stm32f1 { pe := true, start := false, stop := true, ack := true, other := 0 } = 0x0601 := by decide

/-! ### One action of each command -/

/-- V-R2. -/
theorem test_rd_cr_logs : look (·.obs) (exec .rdCr (demo [])) = some [0x0401] := by decide
/-- V-R4a. -/
theorem test_set_start : look (fun t => (t.cr.start, t.phase, t.cc)) (exec .setStart (demo [])) = some (true, .idle, 1) := by decide
/-- V-R4c: no repeated start. -/
theorem test_set_start_in_msSb : reasonOf (exec .setStart (at_ .msSb sbSet (demo []))) =
    some (.unmodelledAccess .setStart .msSb) := by decide
/-- V-R5a. -/
theorem test_set_stop : look (·.cr.stop) (exec .setStop (at_ .mtBtf btfSet (demo []))) = some true := by decide
/-- V-R5b. -/
theorem test_set_stop_in_mtReady : reasonOf (exec .setStop (at_ .mtReady noFlags (demo []))) =
    some (.unmodelledAccess .setStop .mtReady) := by decide
/-- V-R6a. -/
theorem test_set_ack : look (·.cr.ack) (exec .setAck { demo [] with cr.ack := false }) = some true := by decide
/-- V-R6b. -/
theorem test_clr_ack_closes_window :
    look (fun t => (t.cr.ack, t.rxWindowOpen)) (exec .clrAck { at_ .mrRx noFlags (demo []) with rxWindowOpen := true }) =
      some (false, false) := by decide
/-- V-R7a, V-R7b: the latch follows the flag that was read. -/
theorem test_rd_sr1_arms :
    look (fun t => (t.arm.sb, t.obs.length)) (exec .rdSr1 (atUnarmed .msSb sbSet (demo []))) = some (true, 1) := by decide
theorem test_rd_sr1_disarms : look (·.arm.sb) (exec .rdSr1 { demo [] with arm.sb := true }) = some false := by decide
/-- V-R8b. -/
theorem test_rd_sr2_read_direction :
    look (fun t => (t.sr1.addr, t.phase, t.rxWindowOpen)) (exec .rdSr2 { at_ .msAddrAcked addrSet (demo []) with dir := true }) =
      some (false, .mrRx, true) := by decide
/-- V-R8c: without the SR1 read nothing is cleared. -/
theorem test_rd_sr2_unarmed :
    look (fun t => (t.sr1.addr, t.phase)) (exec .rdSr2 (atUnarmed .msAddrAcked addrSet (demo []))) = some (true, .msAddrAcked) := by decide
/-- V-R9a. -/
theorem test_wr_dr_address :
    look (fun t => (t.sr1.sb, t.arm.sb, t.dr, t.phase)) (exec (.wrDr 0x3C) (at_ .msSb sbSet (demo []))) =
      some (false, false, 0x3C, .msAddrTx 0x3C) := by decide
/-- V-R9f: BTF not armed. -/
theorem test_wr_dr_unarmed : reasonOf (exec (.wrDr 0x02) (atUnarmed .mtBtf btfSet (demo []))) =
    some (.unmodelledAccess (.wrDr 0x02) .mtBtf) := by decide
/-- V-R10a. -/
theorem test_rd_dr :
    look (fun t => (t.obs, t.sr1.rxne)) (exec .rdDr { at_ .mrDone rxneSet (demo []) with dr := 0x34 }) = some ([0x0034], false) := by decide

/-- R152, action 1. -/
theorem test_begin_first_action :
    look (fun t => (t.cr.start, t.mpc, t.cls, t.cc)) (exec .beginTxn (demo [])) = some (true, 1, some .txn, 0) := by decide
/-- V-P1: the poll sees SB, arms it and completes. -/
theorem test_begin_poll :
    look (fun t => (t.arm.sb, t.txn, t.cc, t.mpc)) (exec .beginTxn (midway 1 .idle (atUnarmed .msSb sbSet (demo [])))) =
      some (true, .started, 1, 0) := by decide
/-- V-P5: the poll of ADDRESS exits on AF, and `txn` follows the byte all the same. -/
theorem test_address_poll_exits_on_af :
    look (·.mpc) (exec (.address 0x40) (midway 1 .started (at_ .msNacked afSet (demo [])))) = some 2 := by decide
theorem test_address_completes :
    look (fun t => (t.txn, t.phase, t.cc)) (exec (.address 0x41) (midway 3 .started (at_ .msNacked afSet (demo [])))) =
      some (.addrR, .msNacked, 1) := by decide
/-- V-R9d through WRITE_BYTE. -/
theorem test_write_byte_after_a_byte :
    look (fun t => (t.sr1.btf, t.dr, t.phase)) (exec (.writeByte 0xFF) (midway 0 .wrote (at_ .mtBtf btfSet (demo [])))) =
      some (false, 0xFF, .mtTx 0xFF) := by decide
/-- V-P13: the poll does not move while BTF is 0. -/
theorem test_write_byte_poll_waits :
    look (fun t => (t.mpc, t.cc)) (exec (.writeByte 0) (midway 1 .addrW (at_ .msNacked afSet (demo [])))) = some (1, 0) := by decide
/-- R155, actions 3 and 4. -/
theorem test_read_byte_takes_dr :
    look (fun t => (t.tmp, t.sr1.rxne, t.obs)) (exec .readByte (midway 2 .addrR { at_ .mrDone rxneSet (demo []) with dr := 0xFF })) =
      some (0xFF, false, []) := by decide
theorem test_read_byte_logs :
    look (fun t => (t.obs, t.cr.ack, t.txn)) (exec .readByte (midway 3 .addrR { at_ .mrDone noFlags (demo []) with tmp := 0xFF })) =
      some ([0x00FF], true, .read) := by decide
/-- V-P12. -/
theorem test_end_poll_completes :
    look (fun t => (t.txn, t.cc)) (exec .endTxn (midway 1 .wrote (demo []))) = some (.idle, 1) := by decide
/-- V-P6d: END straight after ADDRESS. -/
theorem test_end_after_address : reasonOf (exec .endTxn (midway 0 .addrW (at_ .mtReady noFlags (demo [])))) =
    some (.sequenceViolation 0x05 .addrW) := by decide
/-- R171, action 3: the address byte for writing. -/
theorem test_read_reg_writes_addrW :
    look (fun t => (t.dr, t.mpc)) (exec (.readReg 0x03) (midway 2 .idle (at_ .msSb sbSet (demo [])))) = some (0x3C, 3) := by decide
/-- R171, action 13: the address byte for reading. -/
theorem test_read_reg_writes_addrR :
    look (·.dr) (exec (.readReg 0x03) (midway 12 .idle (at_ .msSb sbSet (demo [])))) = some 0x3D := by decide
/-- R172, action 9: the value, after the first byte was acknowledged. -/
theorem test_write_reg_writes_value :
    look (fun t => (t.dr, t.mpc)) (exec (.writeReg 0x02 0x70) (midway 8 .idle (at_ .mtBtf btfSet (demo [])))) = some (0x70, 9) := by decide
/-- V-M5. -/
theorem test_read_reg_in_a_transaction : reasonOf (exec (.readReg 0x03) (midway 0 .started (demo []))) =
    some (.sequenceViolation 0x10 .started) := by decide
/-- V-F3: the class is checked before the sequence. -/
theorem test_mixed_class : reasonOf (exec .endTxn { demo [] with cls := some .raw }) = some (.mixedCommandClass 0x05) := by decide

/-! ### The controller and the device -/

/-- V-C1a. -/
theorem test_gen_start :
    look (fun t => (t.cr.start, t.sr1, t.phase, t.ref.sel)) (step { demo [] with cr.start := true, ref.sel := true }) =
      some (false, sbSet, .msSb, false) := by decide
/-- V-C2b, V-C2c. -/
theorem test_addr_tx_ack :
    look (fun t => (t.sr1, t.dir, t.phase)) (step (at_ (.msAddrTx 0x3D) noFlags (demo []))) = some (addrSet, true, .msAddrAcked) := by decide
theorem test_addr_tx_nack :
    look (fun t => (t.sr1, t.phase)) (step (at_ (.msAddrTx 0x40) noFlags (demo []))) = some (afSet, .msNacked) := by decide
/-- V-C3c: the pointer wraps. -/
theorem test_byte_tx_writes_and_wraps :
    look (fun t => (t.ref.regs, t.ref.ptr, t.phase))
      (step { at_ (.mtTx 0x12) noFlags (demo []) with ref := { demoRef with sel := true, idx := 1, ptr := 0xFF } }) =
      some ([(3, 0x01), (255, 0x12)], 0x00, .mtBtf) := by decide
/-- V-C4a, V-C4b, V-C4c. -/
theorem test_rx_byte :
    look (fun t => (t.dr, t.sr1, t.phase, t.ref.ptr))
      (step { at_ .mrRx noFlags (demo []) with cr.ack := false, ref := { demoRef with ptr := 3 } }) =
      some (0x01, rxneSet, .mrDone, 4) := by decide
theorem test_rx_byte_waits : enabledStep { at_ .mrRx noFlags (demo []) with rxWindowOpen := true } = none := by decide
theorem test_rx_byte_acked :
    reasonOf (step { at_ .mrRx noFlags (demo []) with cfg.rxAckWindow := .free, rxWindowOpen := true, ref.ptr := 3 }) =
      some (.rxByteAcked 0x01) := by decide
/-- V-C5. -/
theorem test_gen_stop :
    look (fun t => (t.cr.stop, t.sr1, t.arm, t.phase)) (step { at_ .mtBtf btfSet (demo []) with cr.stop := true }) =
      some (false, noFlags, disarmed, .idle) := by decide

/-! ### The run: its ends, the fetch, the schedule -/

/-- V-F8: the empty stream is final at once. -/
theorem test_empty_stream_is_final : isFinal (demo []) = true := by decide
/-- V-F7. -/
theorem test_open_transaction_at_end : reasonOf (step { at_ .msSb sbSet (demo []) with txn := .started }) =
    some (.openTransactionAtEnd .started) := by decide
/-- V-F1: IllegalCommand ranks above MixedCommandClass. -/
theorem test_illegal_command : reasonOf (step { demo [0x01000025] with cls := some .txn }) =
    some (.illegalCommand 0x01000025) := by decide
theorem test_fetch_word_runs_from_reset :
    look (fun t => (t.cr.start, t.cc)) (step (State.reset.withFetchWord 32 0x21)) = some (true, 1) := by decide
/-- The eager schedule of 95_test_vectors.md: with nothing scheduled the controller goes first. -/
theorem test_eager_schedule : mover { demo [0x25] with cr.start := true, sched := [] } = some .controller := by decide

/-! ### Witnesses: concrete data that meet the hypotheses of the statements, clause by clause -/

theorem not_ok_of_error {w : Word} {e : DecodeError} (h : decode w = .error e) : ∀ i, decode w ≠ .ok i := by
  intro i hi
  rw [h] at hi
  cases hi

theorem witness_DecodingIsTheFourConditions :
    decode 0x3C02 = .ok (.address 0x3C) ∧
    (∀ i, decode 0x01000001 ≠ .ok i) ∧ running (demo [0x01000001]) = true ∧ mover (demo [0x01000001]) = some .host ∧
    (demo [0x01000001]).mpc = 0 ∧ fetch (demo [0x01000001]) = some 0x01000001 :=
  ⟨by decide, not_ok_of_error (e := .reservedField 1) (by decide), by decide, by decide, by decide, by decide⟩

/-- Both ends of each reserved range, Z, and an unused A and B, each on a running machine whose host moves. -/
theorem witness_ReservedEncodingsAreIllegal :
    (∀ op ∈ [0x00, 0x06, 0x0F, 0x12, 0x1F, 0x29, 0xFF], op = 0 ∨ 0x06 ≤ op ∧ op ≤ 0x0F ∨ 0x12 ≤ op ∧ op ≤ 0x1F ∨ 0x29 ≤ op) ∧
    (0xFF000011 : Word).extractLsb' 24 8 ≠ 0#8 ∧
    Op.beginTxn.code = (0x00000101 : Word).extractLsb' 0 8 ∧ (0x00000101 : Word).extractLsb' 8 8 ≠ 0#8 ∧
    Op.address.code = (0x00013C02 : Word).extractLsb' 0 8 ∧ (0x00013C02 : Word).extractLsb' 16 8 ≠ 0#8 ∧
    (∀ w ∈ [0x00, 0x06, 0x0F, 0x12, 0x1F, 0x29, 0xFF, 0xFF000011, 0x00000101, 0x00013C02],
      running (demo [w]) = true ∧ mover (demo [w]) = some .host ∧ (demo [w]).mpc = 0 ∧ fetch (demo [w]) = some w) :=
  ⟨by decide, by decide, by decide, by decide, by decide, by decide, fun w _ => ⟨rfl, rfl, rfl, rfl⟩⟩

theorem witness_BytesDecodeToTheirCommand : ([] : List Byte).length < 4 ∧ ([1, 0, 0] : List Byte).length < 4 := by decide

theorem witness_AssemblerSpellsEveryCommand :
    ([0, 255] : List Nat).length = 2 ∧ Op.writeReg.usesB = true ∧ (∀ n ∈ [0, 255], n < 256) ∧
    ([0, 256] : List Nat).length = 2 ∧ 256 ∈ [0, 256] := by decide

theorem witness_StepRunsTheCommandAtCc :
    running (demo [0x25]) = true ∧ mover (demo [0x25]) = some .host ∧ (demo [0x25]).cmds[(demo [0x25]).cc]? = some 0x25 ∧
    decode 0x25 = .ok .rdSr1 := by decide

/-- A start is requested and the schedule is used up, or gives the controller, or the host has nothing to do; the host alone can move. -/
theorem witness_StepRunsTheScheduledAgent :
    (let s : State := { demo [0x25] with cr.start := true, sched := [] }
     running s = true ∧ mover s = some .controller ∧ enabled .genStart s = true ∧ s.sched.head? ≠ some .host) ∧
    ((demo [0x25]).sched.head? = some .host ∧ hostEnabled (demo [0x25]) = true) ∧
    (let s : State := { demo [] with cr.start := true }
     hostEnabled s = false ∧ enabled .genStart s = true) ∧
    (∀ c, enabled c (demo [0x25]) = false) :=
  ⟨by decide, by decide, by decide, fun c => by cases c <;> decide⟩

def recorded : FaultRecord := { reason := .illegalCommand 0, cc := 0, mpc := 0 }

theorem witness_NoStepAfterAFault : { demo [] with fault := some recorded }.fault = some recorded := rfl

theorem witness_FaultsArePreciseAndTerminal :
    (∃ t f, exec (.wrDr 0x3C) (demo []) = .next t ∧ t.fault = some f) ∧
    (∃ f, enabled .rxByte { at_ .mrRx noFlags (demo []) with cfg.rxAckWindow := .free, rxWindowOpen := true } = true ∧
      (runStep .rxByte { at_ .mrRx noFlags (demo []) with cfg.rxAckWindow := .free, rxWindowOpen := true }).fault = some f) ∧
    (∃ t f, step (demo [0]) = .next t ∧ t.fault = some f) :=
  ⟨⟨_, _, rfl, rfl⟩, ⟨_, by decide, rfl⟩, ⟨_, _, rfl, rfl⟩⟩

theorem witness_HardenedLaunchIsRefused :
    { demo [] with cfg.hardened := true }.fault = none ∧ { demo [] with cfg.hardened := true }.cfg.hardened = true := by decide

theorem witness_RunEndsExactlyWhenFinal :
    (running (demo []) = true ∧ (demo []).cc ≤ (demo []).cmds.length ∧ isFinal (demo []) = true) ∧
    (let s : State := { at_ .msSb sbSet (demo []) with txn := .started }
     running s = true ∧ s.cc = s.cmds.length ∧ s.txn ≠ .idle ∧ mover s = some .host) ∧
    (Instr.op .rdCr).cls = .raw ∧ (∃ t, exec .rdCr (demo []) = .next t) := ⟨by decide, by decide, by decide, _, rfl⟩

/-- One state for each place in the order, and one that passes all checks. -/
theorem witness_ChecksComeInOrder :
    (∀ i, decode 0x29 ≠ .ok i) ∧
    (∀ s ∈ [{ demo [0x29] with cls := some .txn }, { demo [5] with cls := some .raw }, demo [5], demo [0x22], demo [0x21]],
      running s = true ∧ mover s = some .host ∧ (fetch s).isSome = true ∧ s.mpc = 0) ∧
    (decode 5 = .ok .endTxn ∧ legalIn .endTxn (demo [5]).txn = false) ∧
    (decode 0x22 = .ok .setStop ∧ (actionsOf demoCfg .setStop)[0]? = some (.access .setStop) ∧
      accessEffect .setStop (demo [0x22]) = none) ∧
    (decode 0x21 = .ok .setStart ∧ accessEffect .setStart (demo [0x21]) ≠ none) ∧
    (∃ t f, exec (.writeReg 0 0) (midway 8 .idle (demo [])) = .next t ∧ t.fault = some f) ∧
    (∃ f, enabled .rxByte { at_ .mrRx noFlags (demo []) with cfg.rxAckWindow := .free } = true ∧
      (runStep .rxByte { at_ .mrRx noFlags (demo []) with cfg.rxAckWindow := .free }).fault = some f) :=
  ⟨not_ok_of_error (e := .reservedOpcode 0x29) (by decide), by decide, by decide, by decide, by decide, ⟨_, _, rfl, rfl⟩,
    ⟨_, by decide, rfl⟩⟩

theorem witness_TransactionGrammar :
    (Instr.op (.writeByte 2)).cls = .txn ∧ running (demo []) = true ∧ (demo []).mpc = 0 ∧ (demo []).cls = none ∧
    legalIn .writeByte (demo []).txn = false ∧
    (∃ t, exec .endTxn (midway 1 .wrote (demo [])) = .next t ∧ t.cc = (midway 1 .wrote (demo [])).cc + 1) :=
  ⟨by decide, by decide, by decide, by decide, by decide, ⟨_, rfl, by decide⟩⟩

/-- A state in which each of the five steps is enabled, RxByte with ACK 0 and 1: for AtMostOneControllerStep, ControllerStepsFrame and the five
statements on the steps. -/
theorem witness_controller_steps :
    enabled .genStart { demo [] with cr.start := true } = true ∧
    enabled .addrTx (at_ (.msAddrTx 0x3C) noFlags (demo [])) = true ∧
    enabled .byteTx (at_ (.mtTx 0x02) noFlags (demo [])) = true ∧
    enabled .rxByte { at_ .mrRx noFlags (demo []) with cr.ack := false } = true ∧
    enabled .rxByte { at_ .mrRx noFlags (demo []) with cr.ack := true } = true ∧
    enabled .genStop { at_ .mtBtf btfSet (demo []) with cr.stop := true } = true ∧
    enabled .genStop { at_ .mrDone noFlags (demo []) with cr.stop := true } = true ∧
    { demo [] with fault := some recorded }.fault ≠ none := by decide

/-- The reference device bound; addressed with no byte yet, with one byte, and not addressed; and the oracle. -/
theorem witness_ReferenceDeviceAnswers :
    (demo []).device = .reference ∧
    ({ demo [] with ref.sel := true }.ref.sel = true ∧ { demo [] with ref.sel := true }.ref.idx = 0) ∧
    ({ demo [] with ref := { demoRef with sel := true, idx := 1 } }.ref.idx ≠ 0) ∧ (demo []).ref.sel = false ∧
    State.reset.device = .oracle := by decide

theorem witness_DeviceMemoryReadAfterWrite : Memory.wf [(3, 0x01), (255, 0x80)] := by decide

/-- A machine ready for a raw command, before the first one and after one: for the eight statements on raw commands. -/
theorem witness_raw_commands :
    ∀ s ∈ [demo [], { demo [] with cls := some .raw }],
      running s = true ∧ s.mpc = 0 ∧ (s.cls = none ∨ s.cls = some .raw) ∧ s.cfg.binding.wellFormed = true := by decide

/-- The phases in which SET_START, SET_STOP and WR_DR are admitted, and one in which they are not, for AdmissionTable and the statements on
these three; and PE = 0. -/
theorem witness_admission :
    ((demo []).phase = .idle ∧ (demo []).cr.stop = false) ∧
    ¬({ demo [] with cr.stop := true }.phase = .idle ∧ { demo [] with cr.stop := true }.cr.stop = false) ∧
    ((at_ .mtBtf btfSet (demo [])).phase = .mtBtf ∧ (at_ .mtBtf btfSet (demo [])).sr1.btf = true ∧
      (at_ .mtBtf btfSet (demo [])).arm.btf = true ∧ (at_ .mtBtf btfSet (demo [])).cr.start = false) ∧
    (at_ .mrDone noFlags (demo [])).phase = .mrDone ∧
    ((at_ .msSb sbSet (demo [])).phase = .msSb ∧ (at_ .msSb sbSet (demo [])).sr1.sb = true ∧
      (at_ .msSb sbSet (demo [])).arm.sb = true) ∧
    (at_ .mtReady noFlags (demo [])).phase = .mtReady ∧ (at_ .msNacked afSet (demo [])).phase = .msNacked ∧
    State.reset.cr.pe = false ∧ admitted (.wrDr 0) (demo []) = false ∧ (accessEffect (.read .sr2) (demo [])).isSome = true ∧
    (¬((demo []).phase = .msSb ∧ (demo []).sr1.sb = true ∧ (demo []).arm.sb = true) ∧ (demo []).phase ≠ .mtReady ∧
      ¬((demo []).phase = .mtBtf ∧ (demo []).sr1.btf = true ∧ (demo []).arm.btf = true) ∧ (demo []).phase ≠ .msNacked) := by decide

/-- The flags of RdSr2ClearsAnArmedAddress and RdDrLogsTheByte: ADDR armed in either direction, and not; RXNE set, and not. -/
theorem witness_RdSr2_RdDr :
    (let s := at_ .msAddrAcked addrSet (demo [])
     s.arm.addr = true ∧ s.sr1.addr = true ∧ s.dir = false ∧ { s with dir := true }.dir = true ∧
       ¬((demo []).arm.addr = true ∧ (demo []).sr1.addr = true)) ∧
    (at_ .mrDone rxneSet (demo [])).sr1.rxne = true ∧ (demo []).sr1.rxne = false := by decide

/-- Each action of the five primitives, with its flag set and not: for the five statements on the primitives. -/
theorem witness_primitives :
    running (demo []) = true ∧ demoCfg.wellFormed = true ∧ (demo []).cfg.binding.wellFormed = true ∧ (demo []).cls = none ∧
    (demo []).txn = .idle ∧ (midway 1 .idle (at_ .msSb sbSet (demo []))).sr1.sb = true ∧ (midway 1 .idle (demo [])).sr1.sb = false ∧
    (midway 0 .started (at_ .msSb sbSet (demo []))).txn = .started ∧
    (drWrite 0x3C (midway 0 .started (at_ .msSb sbSet (demo [])))).isSome = true ∧
    (midway 1 .started (at_ .msAddrAcked addrSet (demo []))).sr1.addr = true ∧
    (midway 1 .started (at_ .msNacked afSet (demo []))).sr1.af = true ∧
    (midway 2 .started (demo [])).mpc = 2 ∧ (midway 3 .started (demo [])).mpc = 3 ∧
    (midway 0 .addrW (at_ .mtReady noFlags (demo []))).txn = .addrW ∧
    (drWrite 0x02 (midway 0 .addrW (at_ .mtReady noFlags (demo [])))).isSome = true ∧
    (drWrite 0x02 (midway 0 .wrote (at_ .mtBtf btfSet (demo [])))).isSome = true ∧
    (midway 1 .wrote (at_ .mtBtf btfSet (demo []))).sr1.btf = true ∧
    (midway 0 .addrR (demo [])).txn = .addrR ∧ (midway 1 .addrR (at_ .mrDone rxneSet (demo []))).sr1.rxne = true ∧
    ((midway 0 .read (at_ .mrDone noFlags (demo []))).txn = .read ∧ (midway 0 .read (at_ .mrDone noFlags (demo []))).cr.start = false) ∧
    (midway 1 .read (demo [])).cr.stop = false ∧ { midway 1 .read (demo []) with cr.stop := true }.cr.stop = true := by decide

/-- A composer's line that is over, one that is not, and the last one: for ReadRegPerformsItsLines and WriteRegPerformsItsLines. -/
theorem witness_composers :
    ((demo []).cls = none ∧ (demo []).txn = .idle ∧ (demo []).mpc = 0 ∧
      (lineEffect (.access .setStart) (demo [])).map Prod.snd = some true) ∧
    ((midway 1 .idle (demo [])).mpc = 1 ∧ (lineEffect (.poll .startSent) (midway 1 .idle (demo []))).map Prod.snd = some false) ∧
    ((midway 21 .idle (demo [])).mpc = 21 ∧ (lineEffect (.poll .stopSent) (midway 21 .idle (demo []))).map Prod.snd = some true) ∧
    ((midway 11 .idle (demo [])).mpc = 11 ∧
      (writeRegActions demoCfg 0 0)[(midway 11 .idle (demo [])).mpc]? = some (.poll .stopSent)) := by decide

/-- A poll of STOP that ends and one that does not. -/
theorem witness_PollRepeatsUntilItsCondition :
    (!(regValue Cond.stopSent.reg (demo [])).getLsbD (demo []).cfg.binding.stop) = true ∧
    (!(regValue Cond.stopSent.reg { demo [] with cr.stop := true }).getLsbD (demo []).cfg.binding.stop) = false := by decide

theorem witness_ReadRegReturnsTheRegister :
    readyForComposer (demo [0x0310]) = true ∧ fetch (demo [0x0310]) = some (encode (.readReg 0x03)) := by decide

theorem witness_WriteRegWritesTheRegister :
    readyForComposer (demo [0x00FFFF11]) = true ∧ fetch (demo [0x00FFFF11]) = some (encode (.writeReg 0xFF 0xFF)) := by decide

theorem witness_DataPollHangsAfterANack :
    (let s := midway 1 .addrW (at_ .msNacked afSet (demo [0x0203]))
     running s = true ∧ s.cfg.binding.wellFormed = true ∧ currentCommand s = some (.writeByte 0x02) ∧ s.mpc = 1 ∧
       s.phase = .msNacked ∧ s.sr1.btf = false) ∧
    (let s := midway 1 .addrR (at_ .msNacked afSet (demo [0x04]))
     running s = true ∧ currentCommand s = some .readByte ∧ s.mpc = 1 ∧ s.phase = .msNacked ∧ s.sr1.rxne = false) := by decide

/-- PE = 0 at the command's start, and a stuck bus at its poll. -/
theorem witness_BeginHangsWithoutABus :
    (let s : State := { demo [1] with cr.pe := false }
     running s = true ∧ s.cfg.binding.wellFormed = true ∧ currentCommand s = some .beginTxn ∧ s.phase = .idle ∧ s.sr1.sb = false ∧
       s.cr.pe = false ∧ s.mpc = 0 ∧ s.cls = none ∧ s.txn = .idle ∧ s.cr.stop = false) ∧
    (let s : State := { midway 1 .idle (demo [1]) with cfg.busStuck := true }
     running s = true ∧ s.cfg.binding.wellFormed = true ∧ currentCommand s = some .beginTxn ∧ s.phase = .idle ∧ s.sr1.sb = false ∧
       s.cfg.busStuck = true ∧ s.mpc = 1) := by decide

/-- The invariant at a launch, at a poll of BEGIN, and in MS_NACKED, each with a step from it. -/
theorem witness_StepKeepsInv :
    (Inv (demo [1]) ∧ ∃ t, step (demo [1]) = .next t) ∧
    (Inv (midway 1 .idle (atUnarmed .msSb sbSet (demo [1]))) ∧ ∃ t, step (midway 1 .idle (atUnarmed .msSb sbSet (demo [1]))) = .next t) ∧
    (Inv (at_ .msNacked afSet (demo [0x25])) ∧ ∃ t, step (at_ .msNacked afSet (demo [0x25])) = .next t) := by
  refine ⟨⟨?_, _, rfl⟩, ⟨?_, _, rfl⟩, ⟨?_, _, rfl⟩⟩ <;> constructor <;> decide

theorem witness_ResetAndLaunchMeetInv : Memory.wf demoRef.regs := by decide

/-- The protocol invariant before the first command, at a poll whose controller step is pending, and after a byte was read. -/
theorem witness_StepKeepsTxnInv :
    (TxnInv (demo [1]) = true ∧ ∃ t, step (demo [1]) = .next t) ∧
    (TxnInv { midway 1 .idle (demo [1]) with cr.start := true, sched := [] } = true ∧
      ∃ t, step { midway 1 .idle (demo [1]) with cr.start := true, sched := [] } = .next t) ∧
    (TxnInv { midway 0 .read (at_ .mrDone noFlags (demo [5])) with dir := true } = true ∧
      ∃ t, step { midway 0 .read (at_ .mrDone noFlags (demo [5])) with dir := true } = .next t) :=
  ⟨⟨by decide, _, rfl⟩, ⟨by decide, _, rfl⟩, ⟨by decide, _, rfl⟩⟩

theorem witness_ActionIndexIsNeverLost : Inv (midway 1 .idle (atUnarmed .msSb sbSet (demo [1]))) := by constructor <;> decide

theorem witness_AcknowledgeFailureIsSticky :
    (∃ t, step (at_ .msNacked afSet (demo [0x25])) = .next t) ∧ (at_ .msNacked afSet (demo [0x25])).sr1.af = true ∧
    Inv (at_ .msNacked afSet (demo [0x25])) ∧ (at_ .msNacked afSet (demo [0x25])).phase = .msNacked :=
  ⟨⟨_, rfl⟩, rfl, by constructor <;> decide, rfl⟩

theorem witness_LaunchIsACleanEntry :
    demoCfg.binding.wellFormed = true ∧ demoCfg.busStuck = false ∧ demoCfg.hardened = false := by decide

/-- A legal command's first access, SET_START, and SET_ACK in the middle of READ_REG: also for ControlWritesFindNoRequestPending. -/
theorem witness_TxnAccessesAreAdmitted :
    (TxnInv (demo [1]) = true ∧ (demo [1]).fault = none ∧ (demo [1]).cls ≠ some .raw ∧ currentCommand (demo [1]) = some .beginTxn ∧
      legalIn .beginTxn (demo [1]).txn = true ∧ (actionsOf demoCfg .beginTxn)[(demo [1]).mpc]? = some (.access .setStart)) ∧
    (let s : State := { midway 19 .idle (at_ .mrDone noFlags (demo [0x0310])) with dir := true, cr.ack := false }
     TxnInv s = true ∧ s.fault = none ∧ s.cls ≠ some .raw ∧ currentCommand s = some (.readReg 0x03) ∧ legalIn .readReg s.txn = true ∧
       (actionsOf s.cfg (.readReg 0x03))[s.mpc]? = some (.access .setAck)) := by decide

/-- Boundary bytes of an axis, both branches of the range. -/
theorem witness_AxisBytesAreSignedLittleEndian : (0x7F : Byte).toNat < 128 ∧ ¬(0x80 : Byte).toNat < 128 := by decide

theorem witness_LogStreamAndParametersArePreserved : ∃ t, step (demo [0x20]) = .next t := ⟨_, rfl⟩

theorem witness_BusPortIsWholeWords :
    demoCfg.binding.wellFormed = true ∧ demoCfg.baseAligned = true ∧ (2 ≠ 4 : Prop) ∧
    (let c : Config := { demoCfg with i2cBase := 0x40005401 }
     (c.i2cBase + c.binding.crOffset).toNat % 4 ≠ 0) ∧
    (0x40005404 : Word) ∉ [0x40005400, 0x40005410, 0x40005414, 0x40005418] ∧
    (drWrite 0x12 (at_ .mtReady noFlags (demo []))).isSome = true ∧
    ((startWrite (demo [])).isSome = true ∧ (demo []).cr.start = false) ∧
    ((stopWrite (at_ .mtBtf btfSet (demo []))).isSome = true ∧ (at_ .mtBtf btfSet (demo [])).cr.stop = false) := by decide

end Sys2Proof.Tests
end

section
/-! The schedule and the two agents: at most one controller step is enabled, so `enabledStep` names it (R135), and which agent moves
(R14, R59; log 2). -/

namespace Sys2Proof.Machine

/-- The only controller step that a phase can enable (R130–R135). -/
def stepOfPhase : Phase → Option ControllerStep
  | .idle => some .genStart
  | .msAddrTx _ => some .addrTx
  | .mtTx _ => some .byteTx
  | .mrRx => some .rxByte
  | .mtBtf | .mrDone => some .genStop
  | .msSb | .msAddrAcked | .mtReady | .msNacked => none

/-- An enabled controller step is the one its phase can enable (R135). -/
theorem stepOfPhase_of_enabled {c : ControllerStep} {s : State} (h : enabled c s = true) : stepOfPhase s.phase = some c := by
  cases c with
  | genStart =>
    simp only [enabled, genStartEnabled, Bool.and_eq_true, beq_iff_eq] at h
    simp [stepOfPhase, h]
  | addrTx =>
    simp only [enabled, addrTxEnabled, addressInFlight, Bool.and_eq_true] at h
    cases hp : s.phase <;> simp [hp] at h
    rfl
  | byteTx =>
    simp only [enabled, byteTxEnabled, byteInFlight, Bool.and_eq_true] at h
    cases hp : s.phase <;> simp [hp] at h
    rfl
  | rxByte =>
    simp only [enabled, rxByteEnabled, Bool.and_eq_true, beq_iff_eq] at h
    simp [stepOfPhase, h]
  | genStop =>
    simp only [enabled, genStopEnabled, Bool.and_eq_true, Bool.or_eq_true, beq_iff_eq] at h
    obtain ⟨⟨_, hp | hp⟩, _⟩ := h <;> simp [stepOfPhase, hp]

/-- "In every state at most one controller step is enabled" (R135). -/
theorem enabled_unique {c d : ControllerStep} {s : State} (hc : enabled c s = true) (hd : enabled d s = true) : c = d :=
  Option.some.inj ((stepOfPhase_of_enabled hc).symm.trans (stepOfPhase_of_enabled hd))

theorem controllerEnabled_iff {s : State} : controllerEnabled s = true ↔ ∃ c, enabled c s = true := by
  rw [← not_iff_not]
  simp [controllerEnabled, enabledStep_none]

theorem controllerEnabled_eq_false_iff {s : State} : controllerEnabled s = false ↔ ∀ c, enabled c s = false := by
  simp [controllerEnabled, enabledStep_none]

/-- The enabled step is the one found (R135). -/
theorem enabledStep_eq_some_iff {s : State} {c : ControllerStep} : enabledStep s = some c ↔ enabled c s = true := by
  refine ⟨enabledStep_enabled, fun h => ?_⟩
  obtain ⟨d, hd⟩ := Option.isSome_iff_exists.mp (controllerEnabled_iff.mpr ⟨c, h⟩)
  rw [hd, enabled_unique (enabledStep_enabled hd) h]

theorem wanted_eq_host_iff {s : State} : wanted s = .host ↔ s.sched.head? = some .host := by
  unfold wanted
  cases s.sched <;> simp

theorem wanted_eq_controller_iff {s : State} : wanted s = .controller ↔ s.sched.head? ≠ some .host := by
  rw [Ne, ← wanted_eq_host_iff]
  cases wanted s <;> simp

/-- The host moves where it has a step and is asked for, or is the only one that has a step. -/
theorem mover_eq_host_iff {s : State} :
    mover s = some .host ↔ hostEnabled s = true ∧ (wanted s = .host ∨ controllerEnabled s = false) := by
  unfold mover
  cases wanted s <;> cases hostEnabled s <;> cases controllerEnabled s <;> simp

/-- The controller moves where it has a step and is asked for, or is the only one that has a step. -/
theorem mover_eq_controller_iff {s : State} :
    mover s = some .controller ↔ controllerEnabled s = true ∧ (wanted s = .controller ∨ hostEnabled s = false) := by
  unfold mover
  cases wanted s <;> cases hostEnabled s <;> cases controllerEnabled s <;> simp

/-- Where the controller moves, the step is the controller's action on the advanced schedule. -/
theorem step_of_mover_controller {s : State} (hr : running s = true) (hm : mover s = some .controller) :
    step s = controllerAction (popSched s) := by
  rw [step, whenRunning_of_running hr, hm]

theorem controllerAction_of_enabled {s : State} {c : ControllerStep} (h : enabled c s = true) :
    controllerAction s = .next (runStep c s) := by
  rw [controllerAction, enabledStep_eq_some_iff.mpr h]

/-- Settles O10: the enabled controller step is the only one (`enabled_unique`), so it is the one that runs; who moves is read off
`mover_eq_host_iff` and `mover_eq_controller_iff`. -/
theorem stepRunsTheScheduledAgent : Obligations.StepRunsTheScheduledAgent := by
  refine ⟨fun s c hr hm hc => ?_, fun s hw hh => ?_, fun s hw hc => ?_, fun s hh hc => ?_, fun s hh hc => ?_⟩
  · have hc' : enabled c (popSched s) = true :=
      enabledStep_eq_some_iff.mp ((enabledStep_popSched s).trans (enabledStep_eq_some_iff.mpr hc))
    rw [step_of_mover_controller hr hm, controllerAction_of_enabled hc', popSched]
  · exact mover_eq_host_iff.mpr ⟨hh, .inl (wanted_eq_host_iff.mpr hw)⟩
  · exact mover_eq_controller_iff.mpr ⟨controllerEnabled_iff.mpr hc, .inl (wanted_eq_controller_iff.mpr hw)⟩
  · exact mover_eq_controller_iff.mpr ⟨controllerEnabled_iff.mpr hc, .inr hh⟩
  · exact mover_eq_host_iff.mpr ⟨hh, .inr (controllerEnabled_eq_false_iff.mpr hc)⟩

end Sys2Proof.Machine
end

section
/-! What one host action does, said once for all sixteen commands: a command is its action list (R111, R151), and beyond its access a host
action touches only the command interface (R21–R24, R44). -/

namespace Sys2Proof.Machine

/-! ### Every command is its action list -/

theorem actionsOf_length (c : Config) (i : Instr) : (actionsOf c i).length = actionCount i := by cases i <;> rfl

/-- A command is one raw access, or a Txn command over its action list whose completion sets `txn` and, for the two reads, logs `tmp`
(R111, R151, R155, R171). -/
theorem exec_cases (i : Instr) (s : State) :
    (∃ a, actionsOf s.cfg i = [.access a] ∧ exec i s = rawCommand i.op a s) ∨
    (∃ x, exec i s = txnCommand i.op (actionsOf s.cfg i) (setTxn x) s) ∨
    (∃ x, exec i s = txnCommand i.op (actionsOf s.cfg i) (fun t => logTmp (setTxn x t)) s) := by
  cases i with
  | rdCr | setStart | setStop | setAck | clrAck | rdSr1 | rdSr2 | wrDr | rdDr => exact .inl ⟨_, rfl, rfl⟩
  | beginTxn | address | writeByte | endTxn | writeReg => exact .inr (.inl ⟨_, rfl⟩)
  | readByte | readReg => exact .inr (.inr ⟨_, rfl⟩)

/-! ### The command interface -/

/-- `t` differs from `s` in the command interface and the schedule only: the controller, the device, the parameters and the stream are the
same. -/
abbrev SameBus (s t : State) : Prop :=
  t = { s with
    tmp := t.tmp, obs := t.obs, fault := t.fault, cls := t.cls, txn := t.txn, cc := t.cc, mpc := t.mpc, sched := t.sched }

theorem SameBus.trans {s t u : State} (h : SameBus s t) (k : SameBus t u) : SameBus s u := by
  rw [h] at k
  exact k

theorem SameBus.cfg {s t : State} (h : SameBus s t) : t.cfg = s.cfg := by rw [h]
theorem SameBus.cmds {s t : State} (h : SameBus s t) : t.cmds = s.cmds := by rw [h]
theorem SameBus.cr {s t : State} (h : SameBus s t) : t.cr = s.cr := by rw [h]
theorem SameBus.sr1 {s t : State} (h : SameBus s t) : t.sr1 = s.sr1 := by rw [h]
theorem SameBus.device {s t : State} (h : SameBus s t) : t.device = s.device := by rw [h]
theorem SameBus.ref {s t : State} (h : SameBus s t) : t.ref = s.ref := by rw [h]
theorem SameBus.trace {s t : State} (h : SameBus s t) : t.trace = s.trace := by rw [h]

theorem sameBus_raiseFault (r : FaultReason) (s : State) : SameBus s (raiseFault r s) := rfl

theorem sameBus_completeRaw (vs : List Half) (s : State) : SameBus s (completeRaw vs s) := rfl

/-- How a host action may move the counters: not at all, to the next action of the current command, or to the next command (R21). -/
def CountersMove (s t : State) : Prop :=
  (t.cc = s.cc ∧ t.mpc = s.mpc) ∨
  (t.cc = s.cc ∧ t.mpc = s.mpc + 1 ∧ ∃ i, currentCommand s = some i ∧ t.mpc < actionCount i) ∨
  (t.cc = s.cc + 1 ∧ t.mpc = 0 ∧ s.cc < s.cmds.length)

/-- What a host action from `s`, its access made in `u`, leaves of the state. -/
structure HostMove (s u t : State) : Prop where
  bus : SameBus u t
  log : s.obs <+: t.obs
  counters : CountersMove s t

theorem hostMove_raiseFault (r : FaultReason) (s : State) : HostMove s s (raiseFault r s) :=
  ⟨sameBus_raiseFault r s, List.prefix_rfl, .inl ⟨rfl, rfl⟩⟩

/-- The completions of the Txn commands touch nothing but the command interface and never rewrite the log. -/
structure InterfaceOnly (complete : State → State) : Prop where
  bus : ∀ s, SameBus s (complete s)
  log : ∀ s, s.obs <+: (complete s).obs

theorem interfaceOnly_setTxn (x : Txn) : InterfaceOnly (setTxn x) := ⟨fun _ => rfl, fun _ => List.prefix_rfl⟩

theorem interfaceOnly_logTmp_setTxn (x : Txn) : InterfaceOnly fun t => logTmp (setTxn x t) :=
  ⟨fun _ => rfl, fun _ => List.prefix_append ..⟩

/-! ### What a host action can do -/

theorem currentCommand_eq_some_iff {s : State} {i : Instr} :
    currentCommand s = some i ↔ ∃ w, fetch s = some w ∧ decode w = .ok i := by
  unfold currentCommand
  cases fetch s with
  | none => simp
  | some w => cases h : decode w <;> simp [h]

theorem cc_lt_of_currentCommand {s : State} {i : Instr} (h : currentCommand s = some i) : s.cc < s.cmds.length := by
  obtain ⟨w, hw, -⟩ := currentCommand_eq_some_iff.mp h
  exact (List.getElem?_eq_some_iff.mp hw).1

/-- An action that is over moves to the next action, and after the last one to the next command (R21, R151). -/
theorem hostMove_advance {i : Instr} {complete : State → State} {s u v : State} (hi : currentCommand s = some i)
    (hm : s.mpc < actionCount i) (hc : InterfaceOnly complete) (hbus : SameBus u v) (hobs : v.obs = s.obs) (hcc : v.cc = s.cc)
    (hmpc : v.mpc = s.mpc) : HostMove s u (advance (s.mpc + 1 == actionCount i) complete v) := by
  unfold advance
  split
  next =>
    have hdone : SameBus (complete v) { complete v with cc := v.cc + 1, mpc := 0 } := rfl
    exact ⟨hbus.trans ((hc.bus v).trans hdone), hobs ▸ hc.log v,
      .inr (.inr ⟨congrArg (· + 1) hcc, rfl, cc_lt_of_currentCommand hi⟩)⟩
  next hlast =>
    have hnext : SameBus v { v with mpc := v.mpc + 1 } := rfl
    have hlt : s.mpc + 1 < actionCount i := by simp at hlast; omega
    exact ⟨hbus.trans hnext, hobs ▸ List.prefix_rfl, .inr (.inl ⟨hcc, congrArg (· + 1) hmpc, i, hi, hmpc ▸ hlt⟩)⟩

/-- One action of a Txn command makes no access, where it records a fault, or its one admitted access (R120, R151). -/
theorem performAction_hostMove {i : Instr} {complete : State → State} {s t : State} {act : Action} (hi : currentCommand s = some i)
    (hm : s.mpc < actionCount i) (hc : InterfaceOnly complete) (h : performAction act (s.mpc + 1 == actionCount i) complete s = t) :
    HostMove s s t ∨ ∃ a, admitted a s = true ∧ HostMove s (afterAccess a s) t := by
  obtain ⟨-, -, hcc, hmpc, -, hobs, -⟩ := afterAccess_frame act.accessOf s
  subst h
  rcases performAction_cases act (s.mpc + 1 == actionCount i) complete s with ⟨-, heq⟩ | ⟨ha, heq⟩
  · exact .inl (heq ▸ hostMove_raiseFault _ s)
  · have hkept : SameBus (afterAccess act.accessOf s) { afterAccess act.accessOf s with
        tmp := act.tmpAfter s, cls := if s.mpc = 0 then some .txn else (afterAccess act.accessOf s).cls } := rfl
    refine .inr ⟨act.accessOf, ha, ?_⟩
    rw [heq]
    cases act.over s with
    | true => exact hostMove_advance hi hm hc hkept hobs hcc hmpc
    | false => exact ⟨hkept, hobs ▸ List.prefix_rfl, .inl ⟨hcc, hmpc⟩⟩

/-- A Txn command's action makes no access, where it records a fault, or one admitted access. -/
theorem txnCommand_hostMove {i : Instr} {complete : State → State} {s t : State} (hi : currentCommand s = some i)
    (hc : InterfaceOnly complete) (h : txnCommand i.op (actionsOf s.cfg i) complete s = .next t) :
    HostMove s s t ∨ ∃ a, admitted a s = true ∧ HostMove s (afterAccess a s) t := by
  obtain ⟨-, ⟨-, -, rfl⟩ | ⟨-, -, -, rfl⟩ | ⟨-, act, hact, rfl⟩⟩ := txnCommand_next h
  · exact .inl (hostMove_raiseFault _ s)
  · exact .inl (hostMove_raiseFault _ s)
  · have hm : s.mpc < actionCount i := actionsOf_length s.cfg i ▸ (List.getElem?_eq_some_iff.mp hact).1
    rw [actionsOf_length]
    exact performAction_hostMove hi hm hc rfl

/-- A raw command makes no access, where it records a fault, or its one admitted access (R111). -/
theorem rawCommand_hostMove {i : Instr} {a : Access} {s t : State} (hi : currentCommand s = some i)
    (h : rawCommand i.op a s = .next t) : HostMove s s t ∨ ∃ a, admitted a s = true ∧ HostMove s (afterAccess a s) t := by
  obtain ⟨-, -, hcc, hmpc, -, hobs, -⟩ := afterAccess_frame a s
  obtain ⟨-, h0, ⟨-, ha, rfl⟩ | ⟨-, -, rfl⟩ | ⟨-, rfl⟩⟩ := rawCommand_next h
  · exact .inr ⟨a, ha, sameBus_completeRaw _ _, hobs ▸ List.prefix_append ..,
      .inr (.inr ⟨congrArg (· + 1) hcc, hmpc.trans h0, cc_lt_of_currentCommand hi⟩)⟩
  · exact .inl (hostMove_raiseFault _ s)
  · exact .inl (hostMove_raiseFault _ s)

/-- All a host action does: at most one admitted access, and the command interface (R14, R21, R22). -/
theorem hostAction_hostMove {s t : State} (h : hostAction s = .next t) :
    HostMove s s t ∨ ∃ a, admitted a s = true ∧ HostMove s (afterAccess a s) t := by
  rcases hostAction_next h with ⟨w, i, hw, hd, hx⟩ | ⟨w, e, -, -, -, rfl⟩ | ⟨-, -, rfl⟩
  · have hi : currentCommand s = some i := currentCommand_eq_some_iff.mpr ⟨w, hw, hd⟩
    rcases exec_cases i s with ⟨a, -, heq⟩ | ⟨x, heq⟩ | ⟨x, heq⟩
    · exact rawCommand_hostMove hi (heq ▸ hx)
    · exact txnCommand_hostMove hi (interfaceOnly_setTxn x) (heq ▸ hx)
    · exact txnCommand_hostMove hi (interfaceOnly_logTmp_setTxn x) (heq ▸ hx)
  · exact .inl (hostMove_raiseFault _ s)
  · exact .inl (hostMove_raiseFault _ s)

end Sys2Proof.Machine
end

section
/-! What an enabled controller step touches, said once for all five (R130–R137, R140). -/

namespace Sys2Proof.Machine

/-- A device query touches the reference device and the trace only (R140). -/
theorem record_onReference_eq (e : BusEvent) (f : RefDevice → RefDevice) (s : State) :
    record e (onReference f s) = { s with ref := (onReference f s).ref, trace := s.trace ++ [e] } := by
  unfold onReference
  split <;> rfl

/-- Whether the reference device is present is no query's to change (R141). -/
theorem onReference_present {f : RefDevice → RefDevice} (s : State) (hf : (f s.ref).present = s.ref.present) :
    (onReference f s).ref.present = s.ref.present := by
  unfold onReference
  cases s.device with
  | oracle => rfl
  | reference => exact hf

theorem refAfterData_present (b : Byte) (d : RefDevice) : (refAfterData b d).present = d.present := by
  unfold refAfterData
  split_ifs <;> rfl

/-- `t` is `s` after a device query, or none: the same but for the reference device's registers and transaction state, and a longer trace. -/
structure DeviceMove (s t : State) : Prop where
  frame : t = { s with ref := t.ref, trace := t.trace }
  present : t.ref.present = s.ref.present
  trace : s.trace <+: t.trace
  memory : Memory.wf s.ref.regs → Memory.wf t.ref.regs

theorem deviceMove_query (e : BusEvent) {f : RefDevice → RefDevice} (s : State) (hp : (f s.ref).present = s.ref.present)
    (hm : Memory.wf s.ref.regs → Memory.wf (f s.ref).regs) : DeviceMove s (record e (onReference f s)) where
  frame := by rw [record_onReference_eq]
  present := onReference_present s hp
  trace := by
    rw [record_onReference_eq]
    exact List.prefix_append ..
  memory h := onReference_wf h hm

theorem deviceMove_start (s : State) : DeviceMove s (deviceStart s) := deviceMove_query _ s rfl id

theorem deviceMove_stop (s : State) : DeviceMove s (deviceStop s) := deviceMove_query _ s rfl id

theorem deviceMove_addressed (a : Byte) (s : State) : DeviceMove s (deviceAddressed a s) := deviceMove_query _ s rfl id

theorem deviceMove_sent (b : Byte) (s : State) : DeviceMove s (deviceSent b s) :=
  deviceMove_query _ s (refAfterData_present b s.ref) refAfterData_wf

theorem deviceMove_read (s : State) : DeviceMove s (deviceRead s) := deviceMove_query _ s rfl id

/-! ### The five steps -/

/-- What a controller step that records no fault does to the controller (R130–R134), the device's own part left out. -/
inductive ControllerEffect (s : State) : State → Prop where
  | start (hp : s.phase = .idle) (hs : s.cr.start = true) :
    ControllerEffect s { s with
      cr := { s.cr with start := false }, sr1 := { s.sr1 with sb := true, btf := false }, arm := disarmed, phase := .msSb }
  | addressAcked (a : Byte) (hp : s.phase = .msAddrTx a) :
    ControllerEffect s { s with sr1 := { s.sr1 with addr := true }, dir := isRead a, phase := .msAddrAcked }
  | byteAcked (b : Byte) (hp : s.phase = .mtTx b) :
    ControllerEffect s { s with sr1 := { s.sr1 with btf := true }, phase := .mtBtf }
  | nacked (b : Byte) (hp : s.phase = .msAddrTx b ∨ s.phase = .mtTx b) :
    ControllerEffect s { s with sr1 := { s.sr1 with af := true }, phase := .msNacked }
  | received (b : Byte) (hp : s.phase = .mrRx) :
    ControllerEffect s { s with dr := b, sr1 := { s.sr1 with rxne := true }, phase := .mrDone }
  | stop (hp : s.phase = .mtBtf ∨ s.phase = .mrDone) (hs : s.cr.stop = true) :
    ControllerEffect s { s with
      cr := { s.cr with stop := false }, sr1 := { s.sr1 with btf := false }, arm := { s.arm with btf := false }
      dir := false, phase := .idle }

theorem addressInFlight_eq_some_iff {s : State} {a : Byte} : addressInFlight s = some a ↔ s.phase = .msAddrTx a := by
  unfold addressInFlight
  cases s.phase <;> simp

theorem byteInFlight_eq_some_iff {s : State} {b : Byte} : byteInFlight s = some b ↔ s.phase = .mtTx b := by
  unfold byteInFlight
  cases s.phase <;> simp

theorem addrTx_effect {a : Byte} {s : State} (hp : s.phase = .msAddrTx a) :
    ∃ u, ControllerEffect s u ∧ DeviceMove u (addrTx a s) := by
  obtain ⟨hframe, hpresent, htrace, hmemory⟩ := deviceMove_addressed a s
  unfold addrTx
  rw [hframe]
  split
  · exact ⟨_, .addressAcked a hp, rfl, hpresent, htrace, hmemory⟩
  · exact ⟨_, .nacked a (.inl hp), rfl, hpresent, htrace, hmemory⟩

theorem byteTx_effect {b : Byte} {s : State} (hp : s.phase = .mtTx b) :
    ∃ u, ControllerEffect s u ∧ DeviceMove u (byteTx b s) := by
  obtain ⟨hframe, hpresent, htrace, hmemory⟩ := deviceMove_sent b s
  unfold byteTx
  rw [hframe]
  split
  · exact ⟨_, .byteAcked b hp, rfl, hpresent, htrace, hmemory⟩
  · exact ⟨_, .nacked b (.inr hp), rfl, hpresent, htrace, hmemory⟩

theorem rxByte_effect {s : State} (hp : s.phase = .mrRx) :
    (∃ b, rxByte s = raiseFault (.rxByteAcked b) s) ∨ ∃ u, ControllerEffect s u ∧ DeviceMove u (rxByte s) := by
  obtain ⟨hframe, hpresent, htrace, hmemory⟩ := deviceMove_read s
  unfold rxByte
  split
  · exact .inl ⟨_, rfl⟩
  · rw [hframe]
    exact .inr ⟨_, .received (readByte s) hp, rfl, hpresent, htrace, hmemory⟩

/-- All an enabled controller step can do: `RxByteAcked`, or its effect and one device query (R130–R134). -/
theorem runStep_effect {c : ControllerStep} {s : State} (h : enabled c s = true) :
    (∃ b, runStep c s = raiseFault (.rxByteAcked b) s) ∨ ∃ u, ControllerEffect s u ∧ DeviceMove u (runStep c s) := by
  cases c with
  | genStart =>
    simp only [enabled, genStartEnabled, Bool.and_eq_true, beq_iff_eq] at h
    obtain ⟨⟨⟨hp, hs⟩, -⟩, -⟩ := h
    exact .inr ⟨_, .start hp hs, deviceMove_start _⟩
  | addrTx =>
    simp only [enabled, addrTxEnabled, Bool.and_eq_true, Option.isSome_iff_exists] at h
    obtain ⟨⟨a, ha⟩, -⟩ := h
    simp only [runStep, ha]
    exact .inr (addrTx_effect (addressInFlight_eq_some_iff.mp ha))
  | byteTx =>
    simp only [enabled, byteTxEnabled, Bool.and_eq_true, Option.isSome_iff_exists] at h
    obtain ⟨⟨b, hb⟩, -⟩ := h
    simp only [runStep, hb]
    exact .inr (byteTx_effect (byteInFlight_eq_some_iff.mp hb))
  | rxByte =>
    simp only [enabled, rxByteEnabled, Bool.and_eq_true, beq_iff_eq] at h
    obtain ⟨⟨⟨hp, -⟩, -⟩, -⟩ := h
    exact rxByte_effect hp
  | genStop =>
    simp only [enabled, genStopEnabled, Bool.and_eq_true, Bool.or_eq_true, beq_iff_eq] at h
    obtain ⟨⟨hs, hp⟩, -⟩ := h
    exact .inr ⟨_, .stop hp hs, deviceMove_stop _⟩

end Sys2Proof.Machine
end

section
/-! The machine invariant (R21, R30–R43) is kept by every access, every controller step and the command interface, hence by every step. -/

namespace Sys2Proof.Machine

/-! ### What the invariant reads -/

/-- The invariant of a state whose command interface alone moved, given its two clauses on the counters. -/
theorem Inv.of_sameBus {s t : State} (h : Inv s) (hb : SameBus s t) (hc : t.cc ≤ t.cmds.length)
    (ha : t.mpc = 0 ∨ ∃ i, currentCommand t = some i ∧ t.mpc < actionCount i) : Inv t := by
  rw [hb] at hc ha ⊢
  exact { h with counter := hc, action := ha }

theorem Inv.of_deviceMove {s t : State} (h : Inv s) (hd : DeviceMove s t) : Inv t := by
  have hm := hd.memory h.memory
  rw [hd.frame] at hm ⊢
  exact { h with memory := hm }

theorem Inv.raiseFault {s : State} (h : Inv s) (r : FaultReason) : Inv (raiseFault r s) := { h with }

theorem Inv.popSched {s : State} (h : Inv s) : Inv (popSched s) := { h with }

theorem Inv.mpc_lt {s : State} {i : Instr} (h : Inv s) (hi : currentCommand s = some i) : s.mpc < actionCount i := by
  rcases h.action with h0 | ⟨j, hj, hlt⟩
  · rw [h0]
    cases i <;> simp [actionCount]
  · rwa [Option.some.inj (hi.symm.trans hj)]

/-- The command at `cc` is read off the stream and `cc` alone. -/
theorem currentCommand_congr {s t : State} (hcmds : t.cmds = s.cmds) (hcc : t.cc = s.cc) : currentCommand t = currentCommand s := by
  unfold currentCommand fetch
  rw [hcmds, hcc]

/-- A host action keeps the invariant where its access does. -/
theorem Inv.of_hostMove {s u t : State} (h : Inv s) (hu : Inv u) (hcmds : u.cmds = s.cmds) (hm : HostMove s u t) : Inv t := by
  have hcmds : t.cmds = s.cmds := hm.bus.cmds.trans hcmds
  have hcounter := h.counter
  refine hu.of_sameBus hm.bus ?_ ?_ <;> rcases hm.counters with ⟨hcc, hmpc⟩ | ⟨hcc, hmpc, i, hi, hlt⟩ | ⟨hcc, hmpc, hlt⟩
  · rwa [hcmds, hcc]
  · rwa [hcmds, hcc]
  · rw [hcmds, hcc]
    exact hlt
  · rw [currentCommand_congr hcmds hcc, hmpc]
    exact h.action
  · exact .inr ⟨i, (currentCommand_congr hcmds hcc).trans hi, hlt⟩
  · exact .inl hmpc

/-! ### Accesses -/

theorem Inv.closeWindow {s : State} (h : Inv s) : Inv (closeWindow s) := { h with window_phase := nofun }

theorem Inv.afterReadSr1 {s : State} (h : Inv s) : Inv (afterReadSr1 s) :=
  { h.closeWindow with arm_sb := id, arm_addr := id, arm_btf := id }

theorem Inv.afterReadDr {s : State} (h : Inv s) : Inv (afterReadDr s) := by
  unfold Machine.afterReadDr
  split <;> exact { h.closeWindow with }

/-- A read of SR2 ends the address phase only where ADDR is 1, that is, in MS_ADDR_ACKED (R107). -/
theorem Inv.afterReadSr2 {s : State} (h : Inv s) : Inv (afterReadSr2 s) := by
  unfold Machine.afterReadSr2
  split
  next hc =>
    have hp : s.phase = .msAddrAcked := h.addr_phase.mp (Bool.and_eq_true_iff.mp hc).2
    obtain ⟨hsb, -, hbtf, haf, hstart, hstop, harm, -, harmb, -, -, -, hmem, hcounter, haction⟩ := h
    cases hd : s.dir
    all_goals
      refine ⟨?_, ?_, ?_, ?_, ?_, ?_, ?_, ?_, ?_, ?_, ?_, ?_, hmem, hcounter, haction⟩
      all_goals simp_all [byteInFlight]
  next => exact { h.closeWindow with }

theorem Inv.afterSetStart {s : State} (h : Inv s) (hp : s.phase = .idle) : Inv (afterSetStart s) :=
  { h.closeWindow with start_idle := fun _ => hp, window_phase := nofun }

theorem Inv.afterSetStop {s : State} (h : Inv s) (hp : s.phase = .mtBtf ∨ s.phase = .mrDone) : Inv (afterSetStop s) :=
  { h.closeWindow with stop_phase := fun _ => hp.imp_right .inl, window_phase := nofun }

theorem Inv.afterSetAck {s : State} (h : Inv s) : Inv (afterSetAck s) := { h.closeWindow with }

theorem Inv.afterClrAck {s : State} (h : Inv s) : Inv (afterClrAck s) := { h.closeWindow with }

/-- A byte written takes MS_SB, MT_READY or MT_BTF to a sending phase with no flag, and clears the flag of the phase it leaves (R108). -/
theorem Inv.afterWrDr {s : State} (h : Inv s) (b : Byte) : Inv (afterWrDr b s) := by
  have h' := h
  obtain ⟨hsb, haddr, hbtf, haf, hstart, hstop, harm, harmAddr, harmBtf, hwindow, hread, hdir, hmem, hcounter, haction⟩ := h
  cases hp : s.phase <;> simp only [Machine.afterWrDr, hp]
  case msNacked => exact { h'.closeWindow with }
  case msSb | mtReady | mtBtf =>
    refine ⟨?_, ?_, ?_, ?_, ?_, ?_, ?_, ?_, ?_, ?_, ?_, ?_, hmem, hcounter, haction⟩
    all_goals simp_all [byteInFlight]
  all_goals exact h'

/-- An admitted access keeps the invariant. -/
theorem Inv.afterAccess {a : Access} {s : State} (h : Inv s) (ha : admitted a s = true) : Inv (afterAccess a s) := by
  cases a with
  | read r =>
    cases r with
    | cr => exact h.closeWindow
    | sr1 => exact h.afterReadSr1
    | sr2 => exact h.afterReadSr2
    | dr => exact h.afterReadDr
  | setStart =>
    simp only [admitted, Bool.and_eq_true, beq_iff_eq] at ha
    exact h.afterSetStart ha.1
  | setStop =>
    simp only [admitted, Bool.and_eq_true, Bool.or_eq_true, beq_iff_eq] at ha
    exact h.afterSetStop ha.1
  | setAck => exact h.afterSetAck
  | clrAck => exact h.afterClrAck
  | wrDr b => exact h.afterWrDr b

/-! ### Controller steps -/

/-- The flag of the phase left is cleared or was 0, and only the flag of the phase entered is set (R130–R134). -/
theorem Inv.of_controllerEffect {s u : State} (h : Inv s) (he : ControllerEffect s u) : Inv u := by
  obtain ⟨hsb, haddr, hbtf, haf, hstart, hstop, harm, harmAddr, harmBtf, hwindow, hread, hdir, hmem, hcounter, haction⟩ := h
  rcases he with ⟨hp, hs⟩ | ⟨a, hp⟩ | ⟨b, hp⟩ | ⟨b, hp | hp⟩ | ⟨b, hp⟩ | ⟨hp | hp, hs⟩
  all_goals
    refine ⟨?_, ?_, ?_, ?_, ?_, ?_, ?_, ?_, ?_, ?_, ?_, ?_, hmem, hcounter, haction⟩
    all_goals simp_all [byteInFlight, disarmed]

/-- An enabled controller step keeps the invariant (R130–R134). -/
theorem Inv.runStep {c : ControllerStep} {s : State} (h : Inv s) (hc : enabled c s = true) : Inv (runStep c s) := by
  rcases runStep_effect hc with ⟨b, heq⟩ | ⟨u, he, hd⟩
  · exact heq ▸ h.raiseFault _
  · exact (h.of_controllerEffect he).of_deviceMove hd

/-! ### Steps -/

/-- A host action keeps the invariant. -/
theorem Inv.hostAction {s t : State} (h : Inv s) (ht : hostAction s = .next t) : Inv t := by
  rcases hostAction_hostMove ht with hm | ⟨a, ha, hm⟩
  · exact h.of_hostMove h rfl hm
  · exact h.of_hostMove (h.afterAccess ha) (afterAccess_frame a s).2.1 hm

/-- The agents' actions and the schedule's advance are all a step is; the controller's step is enabled on the advanced schedule too. -/
theorem step_next_agent {s t : State} (h : step s = .next t) :
    hostAction (popSched s) = .next t ∨ ∃ c, enabled c (popSched s) = true ∧ t = runStep c (popSched s) := by
  obtain ⟨-, ⟨-, hh⟩ | ⟨-, c, hc, rfl⟩⟩ := step_next h
  · exact .inl hh
  · exact .inr ⟨c, enabledStep_enabled ((enabledStep_popSched s).trans hc), rfl⟩

/-- Settles O49: the host's access or the controller's step keeps the controller's clauses, and the counters move inside the stream and the
action list. -/
theorem stepKeepsInv : Obligations.StepKeepsInv := by
  intro s t h hstep
  rcases step_next_agent hstep with hh | ⟨c, hc, rfl⟩
  · exact h.popSched.hostAction hh
  · exact h.popSched.runStep hc

/-- Settles O50: at reset the phase is IDLE and every flag, request and latch is 0; a launch differs from it, as far as the invariant reads,
in the device's memory and the length of the stream. -/
theorem resetAndLaunchMeetInv : Obligations.ResetAndLaunchMeetInv := by
  have hreset : Inv State.reset := by constructor <;> decide
  exact ⟨hreset, fun c d regs present ws sc hm => { hreset with memory := hm, counter := Nat.zero_le _, action := .inl rfl }⟩

/-! ### The model's own stop is not reached -/

theorem whenRunning_ne_noSuchAction {s : State} {k : Host.Outcome State Fault Refusal} (h : k ≠ .fault .noSuchAction) :
    whenRunning s k ≠ .fault .noSuchAction := by
  unfold whenRunning
  split
  · nofun
  · split
    · nofun
    · exact h

/-- A command's action list covers every `mpc` below its length, so its meaning is not the stop `noSuchAction`. -/
theorem exec_ne_noSuchAction {i : Instr} {s : State} (h : s.mpc < actionCount i) : exec i s ≠ .fault .noSuchAction := by
  have htxn (complete : State → State) : txnCommand i.op (actionsOf s.cfg i) complete s ≠ .fault .noSuchAction := by
    refine whenRunning_ne_noSuchAction ?_
    rw [← actionsOf_length s.cfg i] at h
    split_ifs
    · nofun
    · nofun
    · rw [List.getElem?_eq_getElem h]
      nofun
  rcases exec_cases i s with ⟨a, hacts, heq⟩ | ⟨x, heq⟩ | ⟨x, heq⟩
  · have h0 : s.mpc = 0 := by
      rw [← actionsOf_length s.cfg i, hacts] at h
      simpa using h
    rw [heq]
    refine whenRunning_ne_noSuchAction ?_
    rw [if_neg (not_not.mpr h0)]
    split <;> nofun
  · exact heq ▸ htxn _
  · exact heq ▸ htxn _

theorem hostAction_ne_noSuchAction {s : State} (h : Inv s) : hostAction s ≠ .fault .noSuchAction := by
  unfold hostAction
  split
  next w hw =>
    split
    next i hd => exact exec_ne_noSuchAction (h.mpc_lt (currentCommand_eq_some_iff.mpr ⟨w, hw, hd⟩))
    next e hd =>
      have h0 : s.mpc = 0 := h.action.resolve_right fun ⟨i, hi, _⟩ => by simp [currentCommand, hw, hd] at hi
      rw [if_pos h0]
      nofun
  next => split <;> nofun

/-- Settles O51: the clause on `mpc` says it lies inside the current command's action list. -/
theorem actionIndexIsNeverLost : Obligations.ActionIndexIsNeverLost := by
  intro s h
  refine whenRunning_ne_noSuchAction ?_
  split
  · exact hostAction_ne_noSuchAction h.popSched
  · unfold controllerAction
    split <;> nofun
  · nofun

end Sys2Proof.Machine
end

section
/-! What no step changes: log, stream, parameters, PE, the un-modelled CR bits, AF (R22, R34, R39, R62), the recorded fault (R23), and the
reset values (R46). -/

namespace Sys2Proof.Machine

/-- No access writes PE, the un-modelled CR bits or AF (R34, R39). -/
theorem afterAccess_keeps (a : Access) (s : State) :
    (afterAccess a s).cr.pe = s.cr.pe ∧ (afterAccess a s).cr.other = s.cr.other ∧ (afterAccess a s).sr1.af = s.sr1.af := by
  cases a with
  | read r => cases r <;> simp [afterAccess, afterRead, afterReadCr, afterReadSr1, afterReadSr2, afterReadDr] <;> split <;> simp
  | setStart | setStop | setAck | clrAck => exact ⟨rfl, rfl, rfl⟩
  | wrDr b => simp only [afterAccess, afterWrDr]; split <;> simp

/-- What no step changes, going from `s` to `t`: log and trace only grow, `cc` advances by at most one, AF is never cleared (R22, R34, R39,
R62). -/
structure Kept (s t : State) : Prop where
  obs : s.obs <+: t.obs
  cmds : t.cmds = s.cmds
  cfg : t.cfg = s.cfg
  cc : t.cc = s.cc ∨ t.cc = s.cc + 1
  pe : t.cr.pe = s.cr.pe
  other : t.cr.other = s.cr.other
  device : t.device = s.device
  present : t.ref.present = s.ref.present
  trace : s.trace <+: t.trace
  af : s.sr1.af = true → t.sr1.af = true

theorem kept_refl (s : State) : Kept s s := ⟨List.prefix_rfl, rfl, rfl, .inl rfl, rfl, rfl, rfl, rfl, List.prefix_rfl, id⟩

theorem kept_raiseFault (r : FaultReason) (s : State) : Kept s (raiseFault r s) := { kept_refl s with }

theorem kept_afterAccess (a : Access) (s : State) : Kept s (afterAccess a s) := by
  obtain ⟨hcfg, hcmds, hcc, -, -, hobs, -, -, -, hdevice, href, htrace, -⟩ := afterAccess_frame a s
  obtain ⟨hpe, hother, haf⟩ := afterAccess_keeps a s
  exact ⟨hobs ▸ List.prefix_rfl, hcmds, hcfg, .inl hcc, hpe, hother, hdevice, href ▸ rfl, htrace ▸ List.prefix_rfl, haf.symm ▸ id⟩

theorem CountersMove.cc {s t : State} (h : CountersMove s t) : t.cc = s.cc ∨ t.cc = s.cc + 1 := by
  rcases h with ⟨hcc, -⟩ | ⟨hcc, -⟩ | ⟨hcc, -⟩
  · exact .inl hcc
  · exact .inl hcc
  · exact .inr hcc

/-- The command interface adds the log and the counters to what the access keeps. -/
theorem Kept.of_hostMove {s u t : State} (hu : Kept s u) (hm : HostMove s u t) : Kept s t where
  obs := hm.log
  cmds := hm.bus.cmds.trans hu.cmds
  cfg := hm.bus.cfg.trans hu.cfg
  cc := hm.counters.cc
  pe := hm.bus.cr ▸ hu.pe
  other := hm.bus.cr ▸ hu.other
  device := hm.bus.device.trans hu.device
  present := hm.bus.ref ▸ hu.present
  trace := hm.bus.trace ▸ hu.trace
  af := hm.bus.sr1 ▸ hu.af

theorem kept_hostAction {s t : State} (h : hostAction s = .next t) : Kept s t := by
  rcases hostAction_hostMove h with hm | ⟨a, -, hm⟩
  · exact (kept_refl s).of_hostMove hm
  · exact (kept_afterAccess a s).of_hostMove hm

theorem kept_runStep {c : ControllerStep} {s : State} (h : enabled c s = true) : Kept s (runStep c s) := by
  rcases runStep_effect h with ⟨b, heq⟩ | ⟨u, he, hd⟩
  · exact heq ▸ kept_raiseFault _ s
  · have hpresent := hd.present
    have htrace := hd.trace
    rw [hd.frame] at hpresent htrace ⊢
    cases he with
    | nacked => exact ⟨List.prefix_rfl, rfl, rfl, .inl rfl, rfl, rfl, rfl, hpresent, htrace, fun _ => rfl⟩
    | start | addressAcked | byteAcked | received | stop =>
      exact ⟨List.prefix_rfl, rfl, rfl, .inl rfl, rfl, rfl, rfl, hpresent, htrace, id⟩

theorem kept_step {s t : State} (h : step s = .next t) : Kept s t := by
  have hk : Kept (popSched s) t := by
    rcases step_next_agent h with hh | ⟨c, hc, rfl⟩
    · exact kept_hostAction hh
    · exact kept_runStep hc
  exact { hk with }

/-- Settles O56: accesses, the command interface and the controller's effects each keep these (`Kept`). -/
theorem logStreamAndParametersArePreserved : Obligations.LogStreamAndParametersArePreserved := by
  intro s t h
  obtain ⟨hobs, hcmds, hcfg, hcc, hpe, hother, hdevice, hpresent, htrace, -⟩ := kept_step h
  exact ⟨hobs, hcmds, hcfg, hcc, hpe, hother, hdevice, hpresent, htrace⟩

/-- Settles O57: no step clears AF, and under the invariant, which the step keeps, AF is 1 exactly in MS_NACKED. -/
theorem acknowledgeFailureIsSticky : Obligations.AcknowledgeFailureIsSticky := by
  intro s t h
  have haf := (kept_step h).af
  exact ⟨haf, fun hinv hp => (stepKeepsInv s t hinv h).af_phase.mp (haf (hinv.af_phase.mpr hp))⟩

/-! ### A recorded fault is the end -/

theorem whenRunning_of_fault {s : State} {r : FaultRecord} (h : s.fault = some r) (k : Host.Outcome State Fault Refusal) :
    whenRunning s k = .fault (.halted r) := by
  simp [whenRunning, h]

/-- Every enabling condition asks for `BUS_STUCK = false` and `fault = none` (R130–R134). -/
theorem busFree_of_enabled {c : ControllerStep} {s : State} (h : enabled c s = true) : busFree s = true := by
  cases c <;> simp_all [enabled, genStartEnabled, addrTxEnabled, byteTxEnabled, rxByteEnabled, genStopEnabled]

theorem fault_eq_none_of_enabled {c : ControllerStep} {s : State} (h : enabled c s = true) : s.fault = none := by
  have hfree := busFree_of_enabled h
  simp only [busFree, Bool.and_eq_true, beq_iff_eq] at hfree
  exact hfree.2

theorem exec_of_fault {s : State} {r : FaultRecord} (h : s.fault = some r) (i : Instr) : exec i s = .fault (.halted r) := by
  rcases exec_cases i s with ⟨a, -, heq⟩ | ⟨x, heq⟩ | ⟨x, heq⟩
  all_goals
    rw [heq]
    exact whenRunning_of_fault h _

/-- Settles O11: `whenRunning` stops the step and every command, and every controller step asks for `fault = none`. -/
theorem noStepAfterAFault : Obligations.NoStepAfterAFault := by
  refine ⟨fun _ _ _ _ _ _ => rfl, fun s r h => ⟨whenRunning_of_fault h _, exec_of_fault h, fun c => ?_⟩⟩
  rw [Bool.eq_false_iff]
  intro hc
  simp [fault_eq_none_of_enabled hc] at h

/-! ### Reset -/

/-- Settles O58: each value is the reset state's own. -/
theorem resetValues : Obligations.ResetValues :=
  ⟨rfl, rfl, rfl, rfl, rfl, rfl, rfl, rfl, rfl, rfl, rfl, rfl, rfl, rfl, rfl, rfl⟩

end Sys2Proof.Machine
end

section
/-! A command and its four bytes: the word's fields give the command back, and the bytes give the word back (R52, R71, R74, R76). -/

namespace Sys2Proof

/-! ### The word of a command -/

theorem Op.ofCode_code (o : Op) : Op.ofCode o.code = some o := by cases o <;> rfl

theorem Instr.build_fields (i : Instr) : i.op.build i.fieldA i.fieldB = i := by cases i <;> rfl

theorem Instr.fieldA_eq_zero {i : Instr} (h : i.op.usesA = false) : i.fieldA = 0 := by
  cases i
  case address | writeByte | readReg | writeReg | wrDr => cases h
  all_goals rfl

theorem Instr.fieldB_eq_zero {i : Instr} (h : i.op.usesB = false) : i.fieldB = 0 := by
  cases i
  case writeReg => cases h
  all_goals rfl

theorem fields_encode (i : Instr) :
    wordOp (encode i) = i.op.code ∧ wordA (encode i) = i.fieldA ∧ wordB (encode i) = i.fieldB ∧ wordZ (encode i) = 0 :=
  Laws.word_fields 0 i.fieldB i.fieldA i.op.code

/-- A command's word passes the four conditions of R74: its OP has a row, Z is 0, and an operand byte that is not used is 0. -/
theorem decode_encode (i : Instr) : decode (encode i) = .ok i := by
  obtain ⟨hop, hA, hB, hZ⟩ := fields_encode i
  have hunusedB : ¬(i.fieldB ≠ 0 ∧ i.op.usesB = false) := fun h => h.1 (Instr.fieldB_eq_zero h.2)
  have hunusedA : ¬(i.fieldA ≠ 0 ∧ i.op.usesA = false) := fun h => h.1 (Instr.fieldA_eq_zero h.2)
  rw [decode, hop, hA, hB, hZ, Op.ofCode_code]
  simp only [ne_eq, not_true_eq_false, if_false, if_neg hunusedB, if_neg hunusedA, Instr.build_fields]

/-! ### The bytes of a word -/

/-- The bytes of a word, put together again from the top down, are the word (R52; log 19). -/
theorem wordOfBytes_fields (w : Word) : wordOfBytes (wordOp w) (wordA w) (wordB w) (wordZ w) = w := by
  have hZB : wordZ w ++ wordB w = w.extractLsb' 16 16 := BitVec.extractLsb'_append_extractLsb'_eq_extractLsb' rfl
  have hZBA : w.extractLsb' 16 16 ++ wordA w = w.extractLsb' 8 24 := BitVec.extractLsb'_append_extractLsb'_eq_extractLsb' rfl
  have hall : w.extractLsb' 8 24 ++ wordOp w = w.extractLsb' 0 32 := BitVec.extractLsb'_append_extractLsb'_eq_extractLsb' rfl
  rw [wordOfBytes, hZB, hZBA, hall, BitVec.extractLsb'_eq_self]

/-- The decoder reads a command from its four bytes and leaves the rest (R76). -/
theorem decodeBytes_bytesOfWord_encode (i : Instr) (rest : List Byte) :
    decodeBytes (bytesOfWord (encode i) ++ rest) = .ok (i, rest) := by
  simp only [bytesOfWord, List.cons_append, List.nil_append, decodeBytes, wordOfBytes_fields, decode_encode]

theorem decodeBytes_of_length_lt {bs : List Byte} (h : bs.length < 4) : decodeBytes bs = .error .truncated := by
  match bs, h with
  | [], _ | [_], _ | [_, _], _ | [_, _, _], _ => rfl
  | _ :: _ :: _ :: _ :: _, h => simp at h; omega

theorem decodeTableWord_encode (i : Instr) : decodeTableWord 32 (encode i).toNat = some i := by
  have hlt : (encode i).toNat < 2 ^ 32 := (encode i).isLt
  have hbytes : decodeBytes (bytesOfWord (encode i)) = .ok (i, []) := decodeBytes_bytesOfWord_encode i []
  simp only [decodeTableWord, Nat.mod_eq_of_lt hlt, if_pos hlt, BitVec.ofNat_toNat, BitVec.setWidth_eq, hbytes]

/-- Settles O6: the bytes are the word's fields by definition; `wordOfBytes_fields` and `decode_encode` read the command back from them. -/
theorem bytesDecodeToTheirCommand : Obligations.BytesDecodeToTheirCommand :=
  ⟨fun _ => rfl, decodeBytes_bytesOfWord_encode, fun _ => decodeBytes_of_length_lt, decodeTableWord_encode⟩

end Sys2Proof
end

section
/-! The registers on a byte-addressed bus: which bit of CR a written word sets or clears, and what an access of the port then does (R39, R51,
R53–R55; logs 28, 35, 36). -/

namespace Sys2Proof.Machine

/-! ### The word of CR -/

/-- Putting a 1 is the driver's set of a bit (R55). -/
theorem putBit_true (v : Half) (i : Fin 16) : putBit v i true = v ||| (1#16 <<< i.val) := by
  have hone : (BitVec.ofBool true).setWidth 16 = 1#16 := rfl
  rw [putBit, hone]
  ext j
  simp only [BitVec.getElem_or, BitVec.getElem_and, BitVec.getElem_not]
  cases (1#16 <<< i.val)[j] <;> simp

/-- Putting a 0 is the driver's clear of a bit (R55). -/
theorem putBit_false (v : Half) (i : Fin 16) : putBit v i false = v &&& ~~~(1#16 <<< i.val) := by
  simp [putBit]

theorem crDistinct_of_wellFormed {b : Binding} (h : b.wellFormed = true) : b.crDistinct = true := by
  simp only [Binding.wellFormed, Bool.and_eq_true] at h
  obtain ⟨⟨⟨hcr, -⟩, -⟩, -⟩ := h
  exact hcr

section
variable {b : Binding} (h : b.crDistinct = true)
include h

/-- In a binding that keeps them apart, the word of CR shows START, STOP and ACK at their own positions (R29, R101). -/
theorem crBit_fields (cr : ControlReg) :
    crBit b cr b.start = cr.start ∧ crBit b cr b.stop = cr.stop ∧ crBit b cr b.ack = cr.ack := by
  simp only [Binding.crDistinct, decide_eq_true_eq, List.nodup_cons, List.mem_cons, List.not_mem_nil, or_false, not_or] at h
  obtain ⟨-, ⟨hstartStop, hstartAck⟩, hstopAck, -⟩ := h
  simp [crBit, hstartStop, hstartAck, hstopAck]

/-- Words of CR that differ in one of these fields differ. -/
theorem crWord_ne {c d : ControlReg} (hne : c.start ≠ d.start ∨ c.stop ≠ d.stop ∨ c.ack ≠ d.ack) : crWord b c ≠ crWord b d := by
  intro heq
  have hbit (j : Fin 16) : crBit b c j = crBit b d j := by rw [← getLsbD_crWord, heq, getLsbD_crWord]
  obtain ⟨hstart, hstop, hack⟩ := crBit_fields h c
  obtain ⟨hstart', hstop', hack'⟩ := crBit_fields h d
  rcases hne with hne | hne | hne
  · exact hne (hstart ▸ hstart' ▸ hbit b.start)
  · exact hne (hstop ▸ hstop' ▸ hbit b.stop)
  · exact hne (hack ▸ hack' ▸ hbit b.ack)

/-- A bit put at START's, STOP's or ACK's position of the word of CR is that field written: the fields put after it sit elsewhere. -/
theorem putBit_crWord (cr : ControlReg) (x : Bool) :
    putBit (crWord b cr) b.start x = crWord b { cr with start := x } ∧
    putBit (crWord b cr) b.stop x = crWord b { cr with stop := x } ∧
    putBit (crWord b cr) b.ack x = crWord b { cr with ack := x } := by
  simp only [Binding.crDistinct, decide_eq_true_eq, List.nodup_cons, List.mem_cons, List.not_mem_nil, or_false, not_or] at h
  obtain ⟨-, ⟨hstartStop, hstartAck⟩, hstopAck, -⟩ := h
  refine ⟨?_, ?_, ?_⟩
  all_goals
    refine BitVec.eq_of_getLsbD_eq fun j hj => ?_
    rw [getLsbD_putBit _ _ ⟨j, hj⟩, getLsbD_crWord b _ ⟨j, hj⟩, getLsbD_crWord b _ ⟨j, hj⟩, crBit, crBit]
    grind

end

/-! ### Which access a write of CR is (log 28) -/

section
variable {s : State} (h : s.cfg.binding.crDistinct = true)
include h

theorem crWriteAccess_start (h0 : s.cr.start = false) :
    crWriteAccess (crWord s.cfg.binding { s.cr with start := true }) s = some .setStart := by
  simp [crWriteAccess, crWord_ne h, h0]

theorem crWriteAccess_stop (h0 : s.cr.stop = false) :
    crWriteAccess (crWord s.cfg.binding { s.cr with stop := true }) s = some .setStop := by
  simp [crWriteAccess, crWord_ne h, h0]

/-- The word of CR with ACK at `x` is SET_ACK or CLR_ACK, whether it changes ACK or not. -/
theorem crWriteAccess_ack (x : Bool) :
    crWriteAccess (crWord s.cfg.binding { s.cr with ack := x }) s = some (if x then .setAck else .clrAck) := by
  by_cases hx : x = s.cr.ack
  · subst hx
    exact if_pos rfl
  · cases x <;> simp [crWriteAccess, crWord_ne h, hx]

end

/-! ### The port -/

theorem regAddress_mem (c : Config) (r : Reg) :
    regAddress c r ∈ [c.i2cBase + c.binding.crOffset, c.i2cBase + c.binding.drOffset, c.i2cBase + c.binding.sr1Offset,
      c.i2cBase + c.binding.sr2Offset] := by
  cases r <;> simp [regAddress]

/-- An access that reaches no register is refused, read or write (R53). -/
theorem bus_notARegister {s : State} {bytes : Nat} {addr : Word} (h : regAt s.cfg addr bytes = none) (v : Word) :
    busRead addr bytes s = .error .notARegister ∧ busWrite addr bytes v s = .error .notARegister := by
  simp only [busRead, busWrite, h, and_self]

section
variable {s : State} (hb : s.cfg.binding.wellFormed = true) (ha : s.cfg.baseAligned = true)
include hb ha

theorem busRead_regAddress (r : Reg) :
    busRead (regAddress s.cfg r) 4 s = .ok ((regValue r s).setWidth 32, afterRead r s) := by
  simp only [busRead, regAt_regAddress _ r hb ha]

theorem busWrite_of_writeAccess_error {r : Reg} {v : Word} {e : BusRefusal} (hw : writeAccess r (v.setWidth 16) s = .error e) :
    busWrite (regAddress s.cfg r) 4 v s = .error e := by
  simp only [busWrite, regAt_regAddress _ r hb ha, hw]

/-- A write is the access its word stands for, where R100 admits that access. -/
theorem busWrite_of_accessEffect {t : State} {r : Reg} {v : Word} {a : Access} (hw : writeAccess r (v.setWidth 16) s = .ok a)
    (he : accessEffect a s = some t) : busWrite (regAddress s.cfg r) 4 v s = .ok t := by
  rw [accessEffect_eq, Option.ite_none_right_eq_some] at he
  obtain ⟨hadm, ht⟩ := he
  cases ht
  simp only [busWrite, regAt_regAddress _ r hb ha, hw, if_pos hadm]

theorem busWrite_cr {t : State} {v : Half} {a : Access} (hw : crWriteAccess v s = some a) (he : accessEffect a s = some t) :
    busWrite (regAddress s.cfg .cr) 4 (v.setWidth 32) s = .ok t := by
  refine busWrite_of_accessEffect hb ha ?_ he
  rw [BitVec.setWidth_setWidth_of_le v (by decide), BitVec.setWidth_eq]
  simp only [writeAccess, hw]

theorem busWrite_dr {t : State} {v : Word} (he : drWrite (v.setWidth 8) s = some t) :
    busWrite (regAddress s.cfg .dr) 4 v s = .ok t := by
  refine busWrite_of_accessEffect hb ha (a := .wrDr (v.setWidth 8)) ?_ he
  simp only [writeAccess, lowByte, BitVec.setWidth_setWidth_of_le v (show 8 ≤ 16 by decide)]

end

/-- Settles O59: `regAt` finds a register exactly at a whole aligned word of its own; the words a read-modify-write of CR writes are words of
CR with one field written, which `crWriteAccess` tells apart. -/
theorem busPortIsWholeWords : Obligations.BusPortIsWholeWords := by
  refine ⟨fun s bytes addr v h => ?_, fun s v hb ha => ?_⟩
  · have hnone : regAt s.cfg addr bytes = none :=
      regAt_none (h.imp_right (Or.imp_right fun hmem r heq => hmem (heq ▸ regAddress_mem s.cfg r)))
    exact bus_notARegister hnone v
  · have hcr := crDistinct_of_wellFormed hb
    obtain ⟨hstart, hstop, hset⟩ := putBit_crWord hcr s.cr true
    obtain ⟨-, -, hclear⟩ := putBit_crWord hcr s.cr false
    refine ⟨busRead_regAddress hb ha .cr, busRead_regAddress hb ha .dr, busRead_regAddress hb ha .sr1, busRead_regAddress hb ha .sr2,
      busWrite_of_writeAccess_error hb ha (r := .sr1) rfl, busWrite_of_writeAccess_error hb ha (r := .sr2) rfl,
      fun t ht => busWrite_dr hb ha ht, fun t ht h0 => ?_, fun t ht h0 => ?_, ?_, ?_⟩
    · rw [regValue, ← putBit_true, hstart]
      exact busWrite_cr hb ha (crWriteAccess_start hcr h0) ht
    · rw [regValue, ← putBit_true, hstop]
      exact busWrite_cr hb ha (crWriteAccess_stop hcr h0) ht
    · rw [regValue, ← putBit_true, hset]
      exact busWrite_cr hb ha (crWriteAccess_ack hcr true) rfl
    · rw [regValue, ← putBit_false, hclear]
      exact busWrite_cr hb ha (crWriteAccess_ack hcr false) rfl

end Sys2Proof.Machine
end

section
/-! The decoder's other direction: a word that decodes is the word of the command it decodes to (R71, R73, R74). -/

namespace Sys2Proof

/-! ### The rows of the opcode map -/

theorem Op.ofCode_eq_some_iff {c : Byte} {o : Op} : Op.ofCode c = some o ↔ o.code = c := by
  refine ⟨fun h => by simpa using List.find?_some h, ?_⟩
  rintro rfl
  exact Op.ofCode_code o

theorem Op.usesA_eq_true_iff {o : Op} : o.usesA = true ↔ o ∈ [Op.address, .writeByte, .readReg, .writeReg, .wrDr] := by
  cases o <;> decide

theorem Op.usesB_eq_true_iff {o : Op} : o.usesB = true ↔ o = .writeReg := by cases o <;> decide

theorem Op.op_build (o : Op) (a b : Byte) : (o.build a b).op = o := by cases o <;> rfl

theorem Op.fieldA_build {o : Op} {a : Byte} (h : o.usesA = false → a = 0) (b : Byte) : (o.build a b).fieldA = a := by
  cases o
  case address | writeByte | readReg | writeReg | wrDr => rfl
  all_goals exact (h rfl).symm

theorem Op.fieldB_build {o : Op} {b : Byte} (h : o.usesB = false → b = 0) (a : Byte) : (o.build a b).fieldB = b := by
  cases o
  case writeReg => rfl
  all_goals exact (h rfl).symm

/-- Settles O2: each row is the opcode map's own. -/
theorem opcodeMapIsTheTable : Obligations.OpcodeMapIsTheTable := rfl

/-! ### The words that decode -/

/-- `decode` is the four conditions of R74, and builds the command of the row from the operand bytes. -/
theorem decode_eq_ok_iff_conditions {w : Word} {i : Instr} :
    decode w = .ok i ↔ ∃ o : Op, o.code = wordOp w ∧ wordZ w = 0 ∧ (o.usesB = false → wordB w = 0) ∧
      (o.usesA = false → wordA w = 0) ∧ o.build (wordA w) (wordB w) = i := by
  constructor
  · intro h
    unfold decode at h
    split at h
    · cases h
    · rename_i o ho
      split_ifs at h with hZ hB hA
      cases h
      exact ⟨o, Op.ofCode_eq_some_iff.mp ho, not_not.mp hZ, fun hu => by_contra fun hb => hB ⟨hb, hu⟩,
        fun hu => by_contra fun ha => hA ⟨ha, hu⟩, rfl⟩
  · rintro ⟨o, hop, hZ, hB, hA, rfl⟩
    have hunusedB : ¬(wordB w ≠ 0 ∧ o.usesB = false) := fun h => h.1 (hB h.2)
    have hunusedA : ¬(wordA w ≠ 0 ∧ o.usesA = false) := fun h => h.1 (hA h.2)
    rw [decode, ← hop, Op.ofCode_code]
    simp only [hZ, ne_eq, not_true_eq_false, if_false, if_neg hunusedB, if_neg hunusedA]

/-- A word whose Z and unused operand bytes are 0 is the word of its row's command with its operand bytes. -/
theorem encode_build_fields {w : Word} {o : Op} (hop : o.code = wordOp w) (hZ : wordZ w = 0)
    (hB : o.usesB = false → wordB w = 0) (hA : o.usesA = false → wordA w = 0) : encode (o.build (wordA w) (wordB w)) = w := by
  rw [encode, Op.fieldB_build hB, Op.fieldA_build hA, Op.op_build, hop]
  conv_rhs => rw [← wordOfBytes_fields w, hZ, wordOfBytes]
  rfl

theorem encode_eq_of_decode_eq_ok {w : Word} {i : Instr} (h : decode w = .ok i) : encode i = w := by
  obtain ⟨o, hop, hZ, hB, hA, rfl⟩ := decode_eq_ok_iff_conditions.mp h
  exact encode_build_fields hop hZ hB hA

/-- Settles O1: the word of a command meets the four conditions (`decode_encode`), and a word that meets them is put together from its
fields (`encode_build_fields`). -/
theorem decodeEncodeAgree : Obligations.DecodeEncodeAgree := by
  refine fun w i => ⟨encode_eq_of_decode_eq_ok, ?_⟩
  rintro rfl
  exact decode_encode i

/-- The fields of a word that decodes are those of its command (R71). -/
theorem fields_of_decode_eq_ok {w : Word} {i : Instr} (h : decode w = .ok i) :
    wordOp w = i.op.code ∧ wordA w = i.fieldA ∧ wordB w = i.fieldB ∧ wordZ w = 0 :=
  encode_eq_of_decode_eq_ok h ▸ fields_encode i

/-- The same four conditions as R74 words them: B is 0 or the row is WRITE_REG, A is 0 or the row is one of the five that use it. -/
theorem exists_decode_eq_ok_iff {w : Word} :
    (∃ i, decode w = .ok i) ↔
      ∃ o : Op, o.code = wordOp w ∧ wordZ w = 0 ∧ (wordB w = 0 ∨ o = .writeReg) ∧
        (wordA w = 0 ∨ o ∈ [Op.address, .writeByte, .readReg, .writeReg, .wrDr]) := by
  simp only [decode_eq_ok_iff_conditions, ← Op.usesA_eq_true_iff, ← Op.usesB_eq_true_iff, ← Bool.not_eq_true, ← or_iff_not_imp_right]
  exact ⟨fun ⟨_, o, hop, hZ, hB, hA, _⟩ => ⟨o, hop, hZ, hB, hA⟩, fun ⟨o, hop, hZ, hB, hA⟩ => ⟨_, o, hop, hZ, hB, hA, rfl⟩⟩

/-- Settles O5: the words that decode are the encodings of the commands beside them; the other two break one condition each. -/
theorem workedEncodings : Obligations.WorkedEncodings :=
  ⟨decode_encode .beginTxn, decode_encode (.address 0x3C), decode_encode (.address 0x3D), decode_encode (.writeByte 0x02),
    decode_encode .readByte, decode_encode .endTxn, decode_encode (.readReg 0x03), decode_encode (.writeReg 0x02 0x00),
    decode_encode (.writeReg 0x00 0x70), decode_encode .rdSr1, decode_encode (.wrDr 0xFF), rfl, rfl⟩

/-! ### The reserved encodings (R75) -/

/-- The OP values R75 lists as reserved. -/
def reservedOp (n : Nat) : Prop := n = 0 ∨ (0x06 ≤ n ∧ n ≤ 0x0F) ∨ (0x12 ≤ n ∧ n ≤ 0x1F) ∨ 0x29 ≤ n

theorem Op.not_reservedOp_code (o : Op) : ¬reservedOp o.code.toNat := by
  unfold reservedOp
  cases o <;> decide

/-- A reserved OP, a Z that is not 0, or a non-zero operand byte the opcode does not use: the word does not decode. -/
theorem decode_ne_ok_of_reserved {w : Word}
    (h : reservedOp (wordOp w).toNat ∨ wordZ w ≠ 0 ∨
      ∃ o : Op, o.code = wordOp w ∧ (o.usesA = false ∧ wordA w ≠ 0 ∨ o.usesB = false ∧ wordB w ≠ 0)) (i : Instr) :
    decode w ≠ .ok i := by
  intro hi
  obtain ⟨hop, hA, hB, hZ⟩ := fields_of_decode_eq_ok hi
  rcases h with hres | hz | ⟨o, ho, hunused⟩
  · exact i.op.not_reservedOp_code (hop ▸ hres)
  · exact hz hZ
  · have hrow : o = i.op := Option.some.inj ((Op.ofCode_eq_some_iff.mpr (ho.trans hop)).symm.trans (Op.ofCode_code i.op))
    subst hrow
    rcases hunused with ⟨hu, ha⟩ | ⟨hu, hb⟩
    · exact ha (hA.trans (Instr.fieldA_eq_zero hu))
    · exact hb (hB.trans (Instr.fieldB_eq_zero hu))

end Sys2Proof
end

section
/-! The host's step on the word at `cc`: `exec` of what it decodes to, or `IllegalCommand` (R70, R74, R75). -/

namespace Sys2Proof.Machine

/-- Where the host moves, the step is the host's action on the advanced schedule. -/
theorem step_of_mover_host {s : State} (hr : running s = true) (hm : mover s = some .host) : step s = hostAction (popSched s) := by
  rw [step, whenRunning_of_running hr, hm]

theorem hostAction_of_decode_ok {s : State} {w : Word} {i : Instr} (hw : fetch s = some w) (hi : decode w = .ok i) :
    hostAction s = exec i s := by
  simp only [hostAction, hw, hi]

theorem hostAction_of_not_decode_ok {s : State} {w : Word} (hw : fetch s = some w) (hi : ∀ i, decode w ≠ .ok i) (hmpc : s.mpc = 0) :
    hostAction s = .next (raiseFault (.illegalCommand w) s) := by
  cases hd : decode w with
  | ok i => exact absurd hd (hi i)
  | error e => simp only [hostAction, hw, hd, if_pos hmpc]

/-- The host's start of a word that does not decode records `IllegalCommand`, and only the schedule advances (R74, R200). -/
theorem step_of_not_decode_ok {s : State} {w : Word} (hi : ∀ i, decode w ≠ .ok i) (hr : running s = true)
    (hm : mover s = some .host) (hmpc : s.mpc = 0) (hw : fetch s = some w) :
    step s = .next { s with sched := s.sched.tail, fault := some { reason := .illegalCommand w, cc := s.cc, mpc := 0 } } := by
  rw [step_of_mover_host hr hm, hostAction_of_not_decode_ok (s := popSched s) hw hi hmpc, raiseFault, popSched_mpc, hmpc]
  rfl

/-- Settles O9: the host moves, and its action on a word that decodes is `exec`. -/
theorem stepRunsTheCommandAtCc : Obligations.StepRunsTheCommandAtCc := fun s _ _ hr hm hw hi =>
  (step_of_mover_host hr hm).trans (hostAction_of_decode_ok (s := popSched s) hw hi)

/-- Settles O3: the decoder is the four conditions, the fields of a word that decodes are its command's, and the host's action on any other
word is `IllegalCommand`. -/
theorem decodingIsTheFourConditions : Obligations.DecodingIsTheFourConditions := by
  refine fun w => ⟨exists_decode_eq_ok_iff, fun i hi => ?_, fun _ => step_of_not_decode_ok⟩
  obtain ⟨hop, hA, hB, -⟩ := fields_of_decode_eq_ok hi
  exact ⟨hop.symm, hA.symm, hB.symm⟩

/-- Settles O4: a reserved encoding does not decode, so starting it is `IllegalCommand`. -/
theorem reservedEncodingsAreIllegal : Obligations.ReservedEncodingsAreIllegal :=
  ⟨fun _ _ hres => step_of_not_decode_ok (decode_ne_ok_of_reserved hres), rfl⟩

end Sys2Proof.Machine
end

section
/-! Assembly lines and the composers' address bytes (R72, R77, R78). -/

namespace Sys2Proof.Machine

/-! ### The address bytes (R72) -/

theorem extractLsb'_addrW (c : Config) : (addrW c).extractLsb' 1 7 = c.devAddr7 := by
  ext j hj
  have hbit : c.devAddr7.getLsbD j = c.devAddr7[j] := BitVec.getLsbD_eq_getElem hj
  have hlt : 1 + j < 8 ∧ j < 8 := by omega
  simp [addrW, hbit, hlt]

theorem addrR_eq_addrW_or (c : Config) : addrR c = addrW c ||| 1#8 := by simp [addrR, addrW]

/-- Settles O7: `addrW` is DEV_ADDR7 shifted left by one, and `addrR` is `addrW` with bit 0 set, which bits [7:1] do not see. -/
theorem addressBytesCarryDevAddr7 : Obligations.AddressBytesCarryDevAddr7 := by
  refine fun c => ⟨extractLsb'_addrW c, ?_, ?_, ?_, addrR_eq_addrW_or c⟩
  · rw [addrR_eq_addrW_or, BitVec.extractLsb'_or, extractLsb'_addrW]
    exact BitVec.or_zero
  · simp [addrW]
  · simp [addrR]

/-! ### Lines of assembly (R77, R78) -/

theorem find?_mnemonic (o : Op) : (Op.all.find? fun p => p.mnemonic.toList == o.mnemonic.toList) = some o := by
  cases o <;> decide

theorem mnemonic_ne_pseudo (o : Op) : o.mnemonic.toList ≠ "ADDR_W".toList ∧ o.mnemonic.toList ≠ "ADDR_R".toList := by
  cases o <;> decide

/-- A line with a row's mnemonic is that row's: no pseudo-command and no other row has its name. -/
theorem assemble_mnemonic (c : Config) (o : Op) (ns : List Nat) :
    assemble c { name := o.mnemonic.toList, operands := ns } = assembleOp o ns := by
  obtain ⟨hw, hr⟩ := mnemonic_ne_pseudo o
  simp only [assemble, if_neg hw, if_neg hr, find?_mnemonic]

theorem assembleOp_of_lt {o : Op} {ns : List Nat} (hlen : ns.length = operandCount o) (h : ∀ n ∈ ns, n < 256) :
    assembleOp o ns = .ok (o.build (BitVec.ofNat 8 (ns.getD 0 0)) (BitVec.ofNat 8 (ns.getD 1 0))) := by
  have hfind : (ns.find? fun n => !operandInRange n) = none := by simpa [operandInRange] using h
  simp only [assembleOp, hfind, if_pos hlen]

theorem assembleOp_of_ge (o : Op) {ns : List Nat} {n : Nat} (hmem : n ∈ ns) (hn : 256 ≤ n) :
    ∃ m, assembleOp o ns = .error (.operandOutOfRange m) := by
  have hsome : (ns.find? fun n => !operandInRange n).isSome := List.find?_isSome.mpr ⟨n, hmem, by simp [operandInRange, hn]⟩
  obtain ⟨m, hm⟩ := Option.isSome_iff_exists.mp hsome
  exact ⟨m, by simp only [assembleOp, hm]⟩

/-- Settles O8: a row's mnemonic names that row only, whose operands are bytes or one of them is found out of range; the pseudo-commands are
looked up first. -/
theorem assemblerSpellsEveryCommand : Obligations.AssemblerSpellsEveryCommand := by
  refine fun c => ⟨fun o ns hlen => ?_, rfl, rfl⟩
  rw [assemble_mnemonic]
  refine ⟨assembleOp_of_lt hlen, fun n hmem hn => ?_⟩
  obtain ⟨m, hm⟩ := assembleOp_of_ge o hmem hn
  exact ⟨_, hm⟩

end Sys2Proof.Machine
end

section
/-! The raw commands: one register access each, admitted by the table of R100 or recorded as `UnmodelledAccess` (40_register_interface.md). -/

namespace Sys2Proof.Machine

/-! ### The admission table (R100) -/

theorem admitted_setStart_iff {s : State} : admitted .setStart s = true ↔ s.phase = .idle ∧ s.cr.stop = false := by
  simp [admitted]

theorem admitted_setStop_iff {s : State} :
    admitted .setStop s = true ↔ (s.phase = .mtBtf ∨ s.phase = .mrDone) ∧ s.cr.start = false := by
  simp [admitted]

/-- A write of DR is admitted in the four phases that wait for a byte, in MS_SB and MT_BTF once the flag is armed (R100, R108). -/
theorem admitted_wrDr_iff {s : State} {b : Byte} :
    admitted (.wrDr b) s = true ↔
      (s.phase = .msSb ∧ s.sr1.sb = true ∧ s.arm.sb = true) ∨ s.phase = .mtReady ∨
      (s.phase = .mtBtf ∧ s.sr1.btf = true ∧ s.arm.btf = true) ∨ s.phase = .msNacked := by
  unfold admitted
  cases s.phase <;> simp

/-- An access with an effect goes on from it (R101–R109). -/
theorem access_of_accessEffect_some {a : Access} {s t : State} (h : accessEffect a s = some t) (k : State → State) :
    access a s k = k t := by
  rw [accessEffect_eq, Option.ite_none_right_eq_some] at h
  obtain ⟨ha, ht⟩ := h
  rw [access, if_pos ha, Option.some.inj ht]

theorem access_of_not_admitted {a : Access} {s : State} (h : admitted a s = false) (k : State → State) :
    access a s k = raiseFault (.unmodelledAccess a s.phase) s := by
  simp [access, h]

/-- An access without an effect is not admitted (R100). -/
theorem access_of_accessEffect_none {a : Access} {s : State} (h : accessEffect a s = none) (k : State → State) :
    access a s k = raiseFault (.unmodelledAccess a s.phase) s := by
  refine access_of_not_admitted ?_ k
  simpa [accessEffect_eq] using h

/-- Settles O35: each row is `admitted` read off, and `accessEffect` is defined exactly inside the table. -/
theorem admissionTable : Obligations.AdmissionTable :=
  ⟨fun _ _ => ⟨fun _ => rfl, rfl, rfl, admitted_setStart_iff, admitted_setStop_iff, admitted_wrDr_iff⟩,
    fun _ _ k => ⟨fun _ h => access_of_accessEffect_some h k, fun h => access_of_not_admitted h k⟩⟩

/-! ### A raw command that starts (R111) -/

section
variable {s : State} (hr : running s = true) (hmpc : s.mpc = 0) (hcls : s.cls = none ∨ s.cls = some .raw)
include hr hmpc hcls

/-- A raw command passes the class check of its program and makes its access (R24, R111). -/
theorem rawCommand_of_start (o : Op) (a : Access) : rawCommand o a s = .next (access a s (completeRaw (loggedBy a s))) := by
  have hadmits : classAdmits .raw s = true := by simpa [classAdmits] using hcls
  rw [rawCommand, whenRunning_of_running hr, if_neg (not_not.mpr hmpc), if_pos hadmits]

/-- A raw command with an effect completes: its value is logged, the class recorded, `cc` advanced (R111). -/
theorem rawCommand_of_accessEffect_some (o : Op) {a : Access} {t : State} (h : accessEffect a s = some t) :
    rawCommand o a s = .next (completeRaw (loggedBy a s) t) := by
  rw [rawCommand_of_start hr hmpc hcls, access_of_accessEffect_some h]

/-- A raw write with an effect logs nothing (R22, R111). -/
theorem rawCommand_of_write (o : Op) {a : Access} {t : State} (h : accessEffect a s = some t) (hlog : loggedBy a s = []) :
    rawCommand o a s = .next { t with cls := some .raw, cc := t.cc + 1 } := by
  rw [rawCommand_of_accessEffect_some hr hmpc hcls o h, hlog, completeRaw, List.append_nil]

/-- A raw command without an effect records `UnmodelledAccess` and changes nothing else (R100, R200). -/
theorem rawCommand_of_accessEffect_none (o : Op) {a : Access} (h : accessEffect a s = none) :
    rawCommand o a s = .next (raiseFault (.unmodelledAccess a s.phase) s) := by
  rw [rawCommand_of_start hr hmpc hcls, access_of_accessEffect_none h]

end

/-! ### The words of CR and SR1 (R101, R106) -/

/-- In a binding that keeps the fields apart, the word of CR shows each at its position and the un-modelled bits elsewhere (R29, R101). -/
theorem getLsbD_crWord_fields {b : Binding} (h : b.crDistinct = true) (cr : ControlReg) :
    (crWord b cr).getLsbD b.pe = cr.pe ∧ (crWord b cr).getLsbD b.start = cr.start ∧
    (crWord b cr).getLsbD b.stop = cr.stop ∧ (crWord b cr).getLsbD b.ack = cr.ack ∧
    ∀ j : Fin 16, j ∉ [b.pe, b.start, b.stop, b.ack] → (crWord b cr).getLsbD j = cr.other.getLsbD j := by
  obtain ⟨hstart, hstop, hack⟩ := crBit_fields h cr
  simp only [Binding.crDistinct, decide_eq_true_eq, List.nodup_cons, List.mem_cons, List.not_mem_nil, or_false, not_or] at h
  obtain ⟨⟨hpeStart, hpeStop, hpeAck⟩, -⟩ := h
  simp only [getLsbD_crWord]
  refine ⟨?_, hstart, hstop, hack, fun j hj => ?_⟩
  · simp [crBit, hpeStart, hpeStop, hpeAck]
  · simp only [List.mem_cons, List.not_mem_nil, or_false, not_or] at hj
    simp [crBit, hj]

theorem sr1Distinct_of_wellFormed {b : Binding} (h : b.wellFormed = true) : b.sr1Distinct = true := by
  simp only [Binding.wellFormed, Bool.and_eq_true] at h
  obtain ⟨⟨⟨-, hsr1⟩, -⟩, -⟩ := h
  exact hsr1

/-- In a binding that keeps the flags apart, the word of SR1 shows each at its position and the draw elsewhere (R26, R29, R106). -/
theorem getLsbD_sr1Word_fields {b : Binding} (h : b.sr1Distinct = true) (f : StatusFlags) (draw : Half) :
    (sr1Word b f draw).getLsbD b.sb = f.sb ∧ (sr1Word b f draw).getLsbD b.addr = f.addr ∧
    (sr1Word b f draw).getLsbD b.btf = f.btf ∧ (sr1Word b f draw).getLsbD b.rxne = f.rxne ∧
    (sr1Word b f draw).getLsbD b.af = f.af ∧
    ∀ j : Fin 16, j ∉ [b.sb, b.addr, b.btf, b.rxne, b.af] → (sr1Word b f draw).getLsbD j = draw.getLsbD j := by
  simp only [Binding.sr1Distinct, decide_eq_true_eq, List.nodup_cons, List.mem_cons, List.not_mem_nil, or_false, not_or] at h
  obtain ⟨⟨hsbAddr, hsbBtf, hsbRxne, hsbAf⟩, ⟨haddrBtf, haddrRxne, haddrAf⟩, ⟨hbtfRxne, hbtfAf⟩, hrxneAf, -⟩ := h
  simp only [getLsbD_sr1Word]
  refine ⟨?_, ?_, ?_, ?_, ?_, fun j hj => ?_⟩
  · simp [sr1Bit, hsbAddr, hsbBtf, hsbRxne, hsbAf]
  · simp [sr1Bit, haddrBtf, haddrRxne, haddrAf]
  · simp [sr1Bit, hbtfRxne, hbtfAf]
  · simp [sr1Bit, hrxneAf]
  · simp [sr1Bit]
  · simp only [List.mem_cons, List.not_mem_nil, or_false, not_or] at hj
    simp [sr1Bit, hj]

/-! ### The reads (R101, R106, R107, R109) -/

/-- Settles O27: RD_CR logs `crWord`, and closing the window is its only effect on the controller. -/
theorem rdCrLogsTheControlRegister : Obligations.RdCrLogsTheControlRegister := by
  refine ⟨decode_encode .rdCr, fun s hr hmpc hcls hb => ⟨crWord s.cfg.binding s.cr, ?_, ?_⟩⟩
  · exact rawCommand_of_accessEffect_some hr hmpc hcls .rdCr (a := .read .cr) rfl
  · exact getLsbD_crWord_fields (crDistinct_of_wellFormed hb) s.cr

/-- Settles O31: RD_SR1 logs `sr1Word` of the draw taken, and its effect is `sr1Read`. -/
theorem rdSr1LogsTheFlagsAndArms : Obligations.RdSr1LogsTheFlagsAndArms := by
  refine ⟨decode_encode .rdSr1, fun s hr hmpc hcls hb =>
    ⟨sr1Word s.cfg.binding s.sr1 (Config.freeWord s.draws), ?_, ?_⟩⟩
  · exact rawCommand_of_accessEffect_some hr hmpc hcls .rdSr1 (a := .read .sr1) rfl
  · exact getLsbD_sr1Word_fields (sr1Distinct_of_wellFormed hb) s.sr1 _

/-- Settles O32: RD_SR2 logs a draw, and its effect `sr2Read` splits on the armed ADDR and then on the direction. -/
theorem rdSr2ClearsAnArmedAddress : Obligations.RdSr2ClearsAnArmedAddress := by
  refine ⟨decode_encode .rdSr2, fun s hr hmpc hcls => ?_⟩
  have hexec : exec .rdSr2 s = .next (completeRaw [Config.freeWord s.draws] (sr2Read s)) :=
    rawCommand_of_accessEffect_some hr hmpc hcls .rdSr2 (a := .read .sr2) rfl
  rw [hexec, sr2Read]
  refine ⟨fun harm haddr hdir => ?_, fun harm haddr hdir => ?_, fun h => ?_⟩
  · rw [if_pos ⟨harm, haddr⟩, if_neg (Bool.eq_false_iff.mp hdir)]
    rfl
  · rw [if_pos ⟨harm, haddr⟩, if_pos hdir]
    rfl
  · rw [if_neg h]
    rfl

/-- Settles O34: RD_DR logs DR or a draw, and its effect is `drRead`; both split on RXNE. -/
theorem rdDrLogsTheByte : Obligations.RdDrLogsTheByte := by
  refine ⟨decode_encode .rdDr, fun s hr hmpc hcls => ?_⟩
  have hexec : exec .rdDr s = .next (completeRaw [regValue .dr s] (drRead s)) :=
    rawCommand_of_accessEffect_some hr hmpc hcls .rdDr (a := .read .dr) rfl
  rw [hexec, drRead, regValue]
  refine ⟨fun h => ?_, fun h => ?_⟩
  · rw [if_pos h, if_pos h]
    rfl
  · rw [if_neg (Bool.eq_false_iff.mp h), if_neg (Bool.eq_false_iff.mp h)]
    rfl

/-! ### The writes (R102–R105, R108) -/

/-- Settles O28: SET_START has an effect exactly in IDLE with STOP = 0; GenStart asks for PE (R130). -/
theorem setStartRequestsAStart : Obligations.SetStartRequestsAStart := by
  refine ⟨decode_encode .setStart, fun s hpe => by simp [enabled, genStartEnabled, hpe], fun s hr hmpc hcls => ?_⟩
  exact ⟨fun h => rawCommand_of_write hr hmpc hcls .setStart (a := .setStart) (if_pos h) rfl,
    fun h => rawCommand_of_accessEffect_none hr hmpc hcls .setStart (a := .setStart) (if_neg h)⟩

/-- Settles O29: SET_STOP has an effect exactly in MT_BTF and MR_DONE with START = 0. -/
theorem setStopRequestsAStop : Obligations.SetStopRequestsAStop := by
  refine ⟨decode_encode .setStop, fun s hr hmpc hcls => ?_⟩
  exact ⟨fun h => rawCommand_of_write hr hmpc hcls .setStop (a := .setStop) (if_pos h) rfl,
    fun h => rawCommand_of_accessEffect_none hr hmpc hcls .setStop (a := .setStop) (if_neg h)⟩

/-- Settles O30: SET_ACK and CLR_ACK have the effect `ackWrite` in every state. -/
theorem setAndClearAcknowledge : Obligations.SetAndClearAcknowledge :=
  ⟨decode_encode .setAck, decode_encode .clrAck, fun _ hr hmpc hcls =>
    ⟨rawCommand_of_write hr hmpc hcls .setAck (a := .setAck) rfl rfl,
      rawCommand_of_write hr hmpc hcls .clrAck (a := .clrAck) rfl rfl⟩⟩

/-- Settles O33: the effect `drWrite` has one case per admitted phase, and none elsewhere. -/
theorem wrDrStartsATransfer : Obligations.WrDrStartsATransfer := by
  refine ⟨fun b => decode_encode (.wrDr b), fun s b hr hmpc hcls => ?_⟩
  have hwrite {t : State} (h : drWrite b s = some t) : exec (.wrDr b) s = .next { t with cls := some .raw, cc := t.cc + 1 } :=
    rawCommand_of_write hr hmpc hcls .wrDr (a := .wrDr b) h rfl
  refine ⟨fun hp hflag harm => ?_, fun hp => ?_, fun hp hflag harm => ?_, fun hp => ?_, fun hsb hready hbtf hnacked => ?_⟩
  · exact hwrite (if_pos ⟨hp, hflag, harm⟩)
  · exact hwrite (by rw [drWrite, if_neg (by simp [hp]), if_pos hp])
  · exact hwrite (by rw [drWrite, if_neg (by simp [hp]), if_neg (by simp [hp]), if_pos ⟨hp, hflag, harm⟩])
  · exact hwrite (by rw [drWrite, if_neg (by simp [hp]), if_neg (by simp [hp]), if_neg (by simp [hp]), if_pos hp])
  · refine rawCommand_of_accessEffect_none hr hmpc hcls .wrDr (a := .wrDr b) ?_
    rw [accessEffect, drWrite, if_neg hsb, if_neg hready, if_neg hbtf, if_neg hnacked]

/-! ### Polls (R120) -/

/-- After one read of a poll that is not over: the read's side effects, and the class where it starts the command (R24, R120). -/
def afterPoll (c : Cond) (s : State) : State := { afterRead c.reg s with cls := if s.mpc = 0 then some .txn else s.cls }

/-- A poll makes its read in every phase, and moves the counters where its condition holds of the word read (R100, R120). -/
theorem performAction_poll (c : Cond) (last : Bool) (complete : State → State) (s : State) :
    performAction (.poll c) last complete s = if c.holds s then advance last complete (afterPoll c s) else afterPoll c s := by
  obtain ⟨-, -, -, -, htmp, -, -, hcls, -⟩ := afterAccess_frame (.read c.reg) s
  have hread : { afterRead c.reg s with tmp := s.tmp, cls := if s.mpc = 0 then some .txn else (afterRead c.reg s).cls } =
      afterPoll c s := by
    rw [afterPoll, ← htmp, ← hcls]
    rfl
  rw [← hread]
  rfl

/-- A poll's read moves neither the log nor the counters (R120). -/
theorem afterPoll_frame (c : Cond) (s : State) :
    (afterPoll c s).obs = s.obs ∧ (afterPoll c s).cc = s.cc ∧ (afterPoll c s).mpc = s.mpc := by
  obtain ⟨-, -, hcc, hmpc, -, hobs, -⟩ := afterAccess_frame (.read c.reg) s
  exact ⟨hobs, hcc, hmpc⟩

/-- Settles O44: the condition is tested on the bits of the word the read returns (`regBit_eq`), and a poll is its read and then, where it is
over, the counters (`performAction_poll`). -/
theorem pollRepeatsUntilItsCondition : Obligations.PollRepeatsUntilItsCondition := by
  intro s c last complete b v met t
  have hmet : met = c.holds s := by
    cases c <;> simp only [Cond.holds, regBit_eq, met, v, b]
  obtain ⟨hobs, hcc, hmpc⟩ := afterPoll_frame c s
  refine ⟨fun h => ?_, fun h => ?_, hobs, hcc, hmpc, rfl⟩
  · rw [performAction_poll, if_pos (hmet ▸ h), ← hcc, ← hmpc]
    rfl
  · rw [performAction_poll, if_neg (Bool.eq_false_iff.mp (hmet ▸ h))]
    rfl

end Sys2Proof.Machine
end

section
/-! The controller's five steps, each with its enabling condition and its whole effect (R130–R137). -/

namespace Sys2Proof.Machine

/-! ### The enabling conditions -/

theorem busFree_iff {s : State} : busFree s = true ↔ s.cfg.busStuck = false ∧ s.fault = none := by
  simp [busFree]

theorem enabled_genStart_iff {s : State} :
    enabled .genStart s = true ↔
      s.phase = .idle ∧ s.cr.start = true ∧ s.cr.pe = true ∧ s.cfg.busStuck = false ∧ s.fault = none := by
  simp only [enabled, genStartEnabled, Bool.and_eq_true, beq_iff_eq, busFree_iff, and_assoc]

theorem enabled_addrTx_iff {s : State} :
    enabled .addrTx s = true ↔ (∃ a, s.phase = .msAddrTx a) ∧ s.cfg.busStuck = false ∧ s.fault = none := by
  simp only [enabled, addrTxEnabled, Bool.and_eq_true, Option.isSome_iff_exists, addressInFlight_eq_some_iff, busFree_iff]

theorem enabled_byteTx_iff {s : State} :
    enabled .byteTx s = true ↔ (∃ b, s.phase = .mtTx b) ∧ s.cfg.busStuck = false ∧ s.fault = none := by
  simp only [enabled, byteTxEnabled, Bool.and_eq_true, Option.isSome_iff_exists, byteInFlight_eq_some_iff, busFree_iff]

theorem enabled_rxByte_iff {s : State} :
    enabled .rxByte s = true ↔
      s.phase = .mrRx ∧ s.sr1.rxne = false ∧ s.cfg.busStuck = false ∧ s.fault = none ∧
        (s.cfg.rxAckWindow = .free ∨ s.rxWindowOpen = false) := by
  simp only [enabled, rxByteEnabled, Bool.and_eq_true, Bool.or_eq_true, Bool.not_eq_true', beq_iff_eq, busFree_iff, and_assoc]

theorem enabled_genStop_iff {s : State} :
    enabled .genStop s = true ↔
      s.cr.stop = true ∧ (s.phase = .mtBtf ∨ s.phase = .mrDone) ∧ s.cfg.busStuck = false ∧ s.fault = none := by
  simp only [enabled, genStopEnabled, Bool.and_eq_true, Bool.or_eq_true, beq_iff_eq, busFree_iff, and_assoc]

/-! ### The step in its phase -/

theorem runStep_addrTx {a : Byte} {s : State} (h : s.phase = .msAddrTx a) : runStep .addrTx s = addrTx a s := by
  rw [runStep, addressInFlight_eq_some_iff.mpr h]

theorem runStep_byteTx {b : Byte} {s : State} (h : s.phase = .mtTx b) : runStep .byteTx s = byteTx b s := by
  rw [runStep, byteInFlight_eq_some_iff.mpr h]

/-- Settles O19: the condition is `genStartEnabled` read off, the effect `genStart` itself. -/
theorem genStartSendsAStart : Obligations.GenStartSendsAStart := fun _ => ⟨enabled_genStart_iff, rfl⟩

/-- Settles O20: the byte in flight is the phase's, and `addrTx` splits on the device's answer to it. -/
theorem addrTxSamplesTheAcknowledge : Obligations.AddrTxSamplesTheAcknowledge :=
  fun _ => ⟨enabled_addrTx_iff, fun _ hp => runStep_addrTx hp⟩

/-- Settles O21: the byte in flight is the phase's, and `byteTx` splits on the device's answer to it. -/
theorem byteTxSamplesTheAcknowledge : Obligations.ByteTxSamplesTheAcknowledge :=
  fun _ => ⟨enabled_byteTx_iff, fun _ hp => runStep_byteTx hp⟩

/-- Settles O22: `rxByte` splits on ACK, and its fault is `raiseFault`, which writes the record only. -/
theorem rxByteReceivesOneByte : Obligations.RxByteReceivesOneByte :=
  fun _ => ⟨enabled_rxByte_iff, fun h => if_neg (Bool.eq_false_iff.mp h), fun h => if_pos h⟩

/-- Settles O23: the condition is `genStopEnabled` read off, the effect `genStop` itself. -/
theorem genStopSendsAStop : Obligations.GenStopSendsAStop := fun _ => ⟨enabled_genStop_iff, rfl⟩

/-! ### What holds of all five -/

/-- Settles O17: an enabled step is its phase's (`stepOfPhase_of_enabled`), and each row of the table is a value of `stepOfPhase`. -/
theorem atMostOneControllerStep : Obligations.AtMostOneControllerStep := by
  refine ⟨fun _ _ _ => enabled_unique, fun s c h => ?_⟩
  have hrow : stepOfPhase s.phase = some c := stepOfPhase_of_enabled h
  cases hp : s.phase <;> rw [hp] at hrow
  case idle | msAddrTx | mtTx | mrRx | mtBtf | mrDone => exact (Option.some.inj hrow).symm
  case msSb | msAddrAcked | mtReady | msNacked => exact (Option.some_ne_none c hrow.symm).elim

/-- Settles O18: a step records `RxByteAcked` and nothing else, or has one of the five effects on the controller and queries the device. -/
theorem controllerStepsFrame : Obligations.ControllerStepsFrame := by
  refine ⟨fun s c h => ?_, fun s hf c => Bool.eq_false_iff.mpr fun h => hf (fault_eq_none_of_enabled h)⟩
  rcases runStep_effect h with ⟨b, heq⟩ | ⟨u, he, hd⟩
  · simp [heq]
  · rw [hd.frame]
    cases he with
    | start | addressAcked | byteAcked | nacked | received | stop =>
      exact ⟨rfl, rfl, rfl, rfl, rfl, rfl, rfl, rfl, rfl, rfl, rfl, rfl, rfl, rfl, rfl⟩

end Sys2Proof.Machine
end

section
/-! The device: each query's answer and effect where the reference device is bound, and its memory as a map (R140–R145). -/

namespace Sys2Proof.Machine

/-! ### What a query does by the device bound (R140, R141) -/

theorem onReference_of_oracle {s : State} (h : s.device = .oracle) (f : RefDevice → RefDevice) : onReference f s = s := by
  rw [onReference, h]

theorem onReference_of_reference {s : State} (h : s.device = .reference) (f : RefDevice → RefDevice) :
    onReference f s = { s with ref := f s.ref } := by
  rw [onReference, h]

/-- What a query leaves of the reference device where it is bound. -/
theorem query_ref_of_reference {s : State} (h : s.device = .reference) (e : BusEvent) (f : RefDevice → RefDevice) :
    (record e (onReference f s)).ref = f s.ref := by
  rw [record_ref, onReference_of_reference h]

/-- What a query leaves of the reference device where the oracle is bound: all of it. -/
theorem query_ref_of_oracle {s : State} (h : s.device = .oracle) (e : BusEvent) (f : RefDevice → RefDevice) :
    (record e (onReference f s)).ref = s.ref := by
  rw [record_ref, onReference_of_oracle h]

/-- Settles O25: every query is an event recorded after the reference device's part, which the oracle does not have. -/
theorem deviceQueriesTouchOnlyTheDevice : Obligations.DeviceQueriesTouchOnlyTheDevice := by
  intro s a
  refine ⟨record_onReference_eq .., record_onReference_eq .., record_onReference_eq .., record_onReference_eq ..,
    record_onReference_eq .., fun h => ?_⟩
  exact ⟨query_ref_of_oracle h .., query_ref_of_oracle h .., query_ref_of_oracle h .., query_ref_of_oracle h ..,
    query_ref_of_oracle h ..⟩

/-! ### The reference device's answers (R143–R145) -/

theorem ackAddr_of_reference {s : State} (h : s.device = .reference) (a : Byte) :
    ackAddr a s = refAckAddr s.cfg.devAddr7 a s.ref := by
  rw [ackAddr, h]

theorem ackData_of_reference {s : State} (h : s.device = .reference) (b : Byte) : ackData b s = s.ref.sel := by
  rw [ackData, h, refAckData]

theorem readByte_of_reference {s : State} (h : s.device = .reference) :
    readByte s = Memory.read s.ref.regs s.ref.ptr.toNat := by
  rw [readByte, h, refReadByte]

theorem refAckAddr_iff {devAddr7 : BitVec 7} {a : Byte} {d : RefDevice} :
    refAckAddr devAddr7 a d = true ↔ d.present = true ∧ a.extractLsb' 1 7 = devAddr7 := by
  rw [refAckAddr, Bool.and_eq_true, beq_iff_eq, addressBits]

/-- The first data byte of a transaction sets the pointer (R144). -/
theorem refAfterData_first {d : RefDevice} (hsel : d.sel = true) (hidx : d.idx = 0) (b : Byte) :
    refAfterData b d = { d with ptr := b, idx := 1 } := by
  rw [refAfterData, if_pos hsel, if_pos hidx, hidx]

/-- A later data byte is written through the pointer (R144). -/
theorem refAfterData_later {d : RefDevice} (hsel : d.sel = true) (hidx : d.idx ≠ 0) (b : Byte) :
    refAfterData b d = { d with regs := Memory.write d.regs d.ptr.toNat b, ptr := d.ptr + 1, idx := d.idx + 1 } := by
  rw [refAfterData, if_pos hsel, if_neg hidx]

/-- A device that was not addressed ignores a data byte (R144). -/
theorem refAfterData_unselected {d : RefDevice} (hsel : d.sel = false) (b : Byte) : refAfterData b d = d := by
  rw [refAfterData, if_neg (Bool.eq_false_iff.mp hsel)]

/-- Settles O24: with the reference device bound, each query's answer and effect is the reference device's own. -/
theorem referenceDeviceAnswers : Obligations.ReferenceDeviceAnswers := by
  intro s h
  have hquery (e : BusEvent) (f : RefDevice → RefDevice) : (record e (onReference f s)).ref = f s.ref :=
    query_ref_of_reference h e f
  refine ⟨hquery .., hquery .., fun a => ⟨?_, ?_⟩, fun b => ⟨ackData_of_reference h b, ?_, ?_, ?_⟩,
    readByte_of_reference h, hquery ..⟩
  · rw [ackAddr_of_reference h, refAckAddr_iff]
  · rw [ackAddr_of_reference h]
    exact hquery ..
  · exact fun hsel hidx => (hquery ..).trans (refAfterData_first hsel hidx b)
  · exact fun hsel hidx => (hquery ..).trans (refAfterData_later hsel hidx b)
  · exact fun hsel => (hquery ..).trans (refAfterData_unselected hsel b)

/-! ### The memory is a map (R141, R144, R145) -/

/-- Below its first cell a memory reads as unlisted. -/
theorem Memory.read_of_lt {m : Memory} {a : Nat} (h : ∀ c ∈ m, a < c.1) : Memory.read m a = Memory.unlisted := by
  induction m with
  | nil => rfl
  | cons x m ih =>
    obtain ⟨hx, hm⟩ := List.forall_mem_cons.mp h
    rw [Memory.read, if_neg hx.ne, ih hm]

/-- A read after a write. That the sub-addresses rise is what makes leaving out or removing a cell read as unlisted. -/
theorem Memory.read_write {m : Memory} (h : m.Pairwise fun x y => x.1 < y.1) (a b : Nat) (v : Byte) :
    Memory.read (Memory.write m a v) b = if b = a then v else Memory.read m b := by
  induction m with
  | nil =>
    by_cases hv : v = Memory.unlisted <;> simp [Memory.write, Memory.read, hv]
  | cons x m ih =>
    obtain ⟨hx, hm⟩ := List.pairwise_cons.mp h
    rcases lt_trichotomy a x.1 with hlt | heq | hgt
    · have hbelow : Memory.read (x :: m) a = Memory.unlisted :=
        Memory.read_of_lt (List.forall_mem_cons.mpr ⟨hlt, fun c hc => hlt.trans (hx c hc)⟩)
      by_cases hv : v = Memory.unlisted
      · rw [Memory.write, if_pos hlt, if_pos hv]
        split_ifs with hb
        · rw [hb, hbelow, hv]
        · rfl
      · rw [Memory.write, if_pos hlt, if_neg hv, Memory.read]
    · have hbelow : Memory.read m a = Memory.unlisted := Memory.read_of_lt fun c hc => heq ▸ hx c hc
      by_cases hv : v = Memory.unlisted
      · rw [Memory.write, if_neg heq.not_lt, if_pos heq, if_pos hv]
        split_ifs with hb
        · rw [hb, hbelow, hv]
        · rw [Memory.read, if_neg (heq ▸ hb)]
      · rw [Memory.write, if_neg heq.not_lt, if_pos heq, if_neg hv, Memory.read, Memory.read]
        split_ifs with hb hb'
        · rfl
        · exact absurd (hb'.trans heq.symm) hb
        · rfl
    · rw [Memory.write, if_neg hgt.not_gt, if_neg hgt.ne', Memory.read, Memory.read, ih hm]
      split_ifs with hbx hba
      · exact absurd (hba.symm.trans hbx) hgt.ne'
      · rfl
      · rfl
      · rfl

/-- Settles O26: a canonical memory's sub-addresses rise. -/
theorem deviceMemoryReadAfterWrite : Obligations.DeviceMemoryReadAfterWrite :=
  fun _ a b v ⟨hrising, _⟩ => Memory.read_write hrising a b v

end Sys2Proof.Machine
end

section
/-! One host action of a Txn command, from the effect of its line: the checks at its start, the counters and the completion after it (R120,
R151), and with it the five bus primitives action by action (42_bus_primitives.md). -/

namespace Sys2Proof.Machine

/-! ### A Txn command is its action list and its completion (R150, R151) -/

/-- The grammar state a Txn command leaves when it completes, the last column of R150's table. -/
def txnAfter : Instr → Txn
  | .beginTxn => .started
  | .address a => if isRead a then .addrR else .addrW
  | .writeByte _ => .wrote
  | .readByte => .read
  | _ => .idle

/-- What a Txn command does on completion besides the counters: `txn`, and for the two reads the log (R151). -/
def completionOf (i : Instr) (s : State) : State :=
  match i with
  | .readByte | .readReg _ => logTmp (setTxn (txnAfter i) s)
  | _ => setTxn (txnAfter i) s

theorem completionOf_txn (i : Instr) (s : State) : (completionOf i s).txn = txnAfter i := by cases i <;> rfl

theorem completionOf_fault (i : Instr) (s : State) : (completionOf i s).fault = s.fault := by cases i <;> rfl

theorem completionOf_cls (i : Instr) (s : State) : (completionOf i s).cls = s.cls := by cases i <;> rfl

theorem sameBus_completionOf (i : Instr) (s : State) : SameBus s (completionOf i s) := by cases i <;> rfl

theorem exec_eq_txnCommand {i : Instr} (hi : i.op.cls = .txn) (s : State) :
    exec i s = txnCommand i.op (actionsOf s.cfg i) (completionOf i) s := by
  cases i with
  | beginTxn | address | writeByte | readByte | endTxn | readReg | writeReg => rfl
  | rdCr | setStart | setStop | setAck | clrAck | rdSr1 | rdSr2 | wrDr | rdDr => cases hi

/-! ### A line with an effect -/

/-- A line with an effect is admitted (R100). -/
theorem admitted_of_lineEffect {act : Action} {s t : State} {ends : Bool} (hb : s.cfg.binding.wellFormed = true)
    (h : lineEffect act s = some (t, ends)) : admitted act.accessOf s = true := by
  rw [lineEffect_eq act s hb, Option.ite_none_right_eq_some] at h
  exact h.1

/-- A line's effect leaves alone the parameters, the stream, the counters, the fault, the class and the grammar state. -/
theorem lineEffect_frame {act : Action} {s t : State} {ends : Bool} (hb : s.cfg.binding.wellFormed = true)
    (h : lineEffect act s = some (t, ends)) :
    t.cfg = s.cfg ∧ t.cmds = s.cmds ∧ t.cc = s.cc ∧ t.mpc = s.mpc ∧ t.fault = s.fault ∧ t.cls = s.cls ∧ t.txn = s.txn := by
  rw [lineEffect_eq act s hb, Option.ite_none_right_eq_some, Option.some.injEq, Prod.mk.injEq] at h
  obtain ⟨-, rfl, -⟩ := h
  obtain ⟨hcfg, hcmds, hcc, hmpc, -, -, hfault, hcls, htxn, -⟩ := afterAccess_frame act.accessOf s
  exact ⟨hcfg, hcmds, hcc, hmpc, hfault, hcls, htxn⟩

/-- An action is its line's effect, the class where it starts the command, and the counters where the line is over (R24, R120, R151). -/
theorem performAction_of_lineEffect {act : Action} {s t : State} {ends : Bool} (hb : s.cfg.binding.wellFormed = true)
    (h : lineEffect act s = some (t, ends)) (last : Bool) (complete : State → State) :
    performAction act last complete s =
      let u := { t with cls := if s.mpc = 0 then some .txn else t.cls }
      if ends then advance last complete u else u := by
  rw [lineEffect_eq act s hb, Option.ite_none_right_eq_some, Option.some.injEq, Prod.mk.injEq] at h
  obtain ⟨ha, rfl, rfl⟩ := h
  rw [performAction, access, if_pos ha]

/-- A Txn command may make its action `mpc` names: later actions are not checked, the first one passes the class check and the sequence check
(R24, R150, R151). -/
def MayAct (i : Instr) (s : State) : Prop := s.mpc = 0 → (s.cls = none ∨ s.cls = some .txn) ∧ legalIn i.op s.txn = true

theorem mayAct_of_ne {i : Instr} {s : State} (h : s.mpc ≠ 0) : MayAct i s := fun h0 => absurd h0 h

/-- One host action of a Txn command past its checks is the action `mpc` names (R151). -/
theorem exec_of_action {i : Instr} {s : State} {act : Action} (hr : running s = true) (hi : i.op.cls = .txn) (hc : MayAct i s)
    (hact : (actionsOf s.cfg i)[s.mpc]? = some act) :
    exec i s = .next (performAction act (s.mpc + 1 == actionCount i) (completionOf i) s) := by
  have hcls : ¬(s.mpc = 0 ∧ classAdmits .txn s = false) := fun ⟨h0, hn⟩ => by
    have h := (hc h0).1
    simp_all [classAdmits]
  have hlegal : ¬(s.mpc = 0 ∧ legalIn i.op s.txn = false) := fun ⟨h0, hn⟩ => by simp [(hc h0).2] at hn
  rw [exec_eq_txnCommand hi, txnCommand, whenRunning_of_running hr, if_neg hcls, if_neg hlegal]
  simp only [hact, actionsOf_length]

section
variable {i : Instr} {s t : State} {act : Action} (hr : running s = true) (hb : s.cfg.binding.wellFormed = true)
  (hi : i.op.cls = .txn)
include hr hb hi

/-- The first action, which is over at once in a command that has more. -/
theorem exec_of_first_line (hmpc : s.mpc = 0) (hcls : s.cls = none ∨ s.cls = some .txn) (hlegal : legalIn i.op s.txn = true)
    (hact : (actionsOf s.cfg i)[0]? = some act) (hmore : 1 < actionCount i) (h : lineEffect act s = some (t, true)) :
    exec i s = .next { t with cls := some .txn, mpc := 1 } := by
  obtain ⟨-, -, -, htmpc, -⟩ := lineEffect_frame hb h
  have hlast : (0 + 1 == actionCount i) = false := by simp; omega
  rw [exec_of_action hr hi (fun _ => ⟨hcls, hlegal⟩) (hmpc ▸ hact), performAction_of_lineEffect hb h, hmpc, hlast]
  simp [advance, htmpc, hmpc]

section
variable {k : Nat} (hmpc : s.mpc = k) (hk : k ≠ 0) (hact : (actionsOf s.cfg i)[k]? = some act)
include hmpc hk hact

/-- A later action is the line's effect, and the counters where it is over. -/
theorem exec_of_later_line {ends : Bool} (h : lineEffect act s = some (t, ends)) :
    exec i s = .next (if ends then advance (k + 1 == actionCount i) (completionOf i) t else t) := by
  subst hmpc
  rw [exec_of_action hr hi (mayAct_of_ne hk) hact, performAction_of_lineEffect hb h]
  simp only [if_neg hk]

/-- A poll that is not over stays (R120). -/
theorem exec_of_line_again (h : lineEffect act s = some (t, false)) : exec i s = .next t :=
  exec_of_later_line hr hb hi hmpc hk hact h

/-- An action that is over, with more to come (R21). -/
theorem exec_of_line_over (hmore : k + 1 < actionCount i) (h : lineEffect act s = some (t, true)) :
    exec i s = .next { t with mpc := k + 1 } := by
  obtain ⟨-, -, -, htmpc, -⟩ := lineEffect_frame hb h
  have hlast : (k + 1 == actionCount i) = false := by simp; omega
  rw [exec_of_later_line hr hb hi hmpc hk hact h, hlast, ← hmpc, ← htmpc]
  rfl

/-- The last action completes the command (R151). -/
theorem exec_of_last_line (hlast : k + 1 = actionCount i) (h : lineEffect act s = some (t, true)) :
    exec i s = .next { completionOf i t with cc := s.cc + 1, mpc := 0 } := by
  obtain ⟨-, -, htcc, -⟩ := lineEffect_frame hb h
  rw [exec_of_later_line hr hb hi hmpc hk hact h, hlast, beq_self_eq_true, ← htcc]
  rfl

end
end

/-! ### The transaction grammar (R150) -/

/-- A Txn command issued where it is not legal records `SequenceViolation` and nothing else. -/
theorem exec_of_not_legal {i : Instr} {s : State} (hi : i.op.cls = .txn) (hr : running s = true) (hmpc : s.mpc = 0)
    (hcls : s.cls = none ∨ s.cls = some .txn) (hlegal : legalIn i.op s.txn = false) :
    exec i s = .next (raiseFault (.sequenceViolation i.op.code s.txn) s) := by
  have hadmits : classAdmits .txn s = true := by simpa [classAdmits] using hcls
  rw [exec_eq_txnCommand hi, txnCommand, whenRunning_of_running hr, if_neg (by simp [hadmits]), if_pos ⟨hmpc, hlegal⟩]

/-- Only the completion advances `cc`, and it sets `txn`. -/
theorem performAction_txn_of_cc {act : Action} {last : Bool} {i : Instr} {s : State}
    (h : (performAction act last (completionOf i) s).cc = s.cc + 1) : (performAction act last (completionOf i) s).txn = txnAfter i := by
  obtain ⟨-, -, hcc, -⟩ := afterAccess_frame act.accessOf s
  rcases performAction_cases act last (completionOf i) s with ⟨-, heq⟩ | ⟨-, heq⟩
  · simp [heq] at h
  · rw [heq] at h ⊢
    cases hover : act.over s with
    | false => simp [hover, hcc] at h
    | true =>
      cases last with
      | false => simp [hover, advance, hcc] at h
      | true => simp [advance, completionOf_txn]

/-- Settles O16: the table's two columns are `legalIn` and `txnAfter`; the sequence check comes before the action, and only the completion
advances `cc`. -/
theorem transactionGrammar : Obligations.TransactionGrammar := by
  refine ⟨fun t => by simp [legalIn], fun i s hi hr hmpc hcls hlegal => exec_of_not_legal hi hr hmpc hcls hlegal,
    fun i s t hi h hcc => ?_⟩
  suffices t.txn = txnAfter i by cases i <;> exact this
  rw [exec_eq_txnCommand hi] at h
  obtain ⟨-, ⟨-, -, rfl⟩ | ⟨-, -, -, rfl⟩ | ⟨-, act, -, rfl⟩⟩ := txnCommand_next h
  · simp at hcc
  · simp at hcc
  · exact performAction_txn_of_cc hcc

/-! ### The five primitives (R152–R156) -/

theorem lineEffect_access {a : Access} {s t : State} (h : accessEffect a s = some t) :
    lineEffect (.access a) s = some (t, true) := by
  rw [lineEffect, h, Option.map_some]

/-- A poll of a flag is one read of SR1, over exactly where its condition holds (R120). -/
theorem lineEffect_poll {c : Cond} {s : State} {met : Bool} (hc : c ≠ .stopSent) (h : condMet c s = met) :
    lineEffect (.poll c) s = some (sr1Read s, met) := by
  subst h
  cases c with
  | stopSent => exact absurd rfl hc
  | startSent | addressAnswered | byteFinished | byteReceived => rfl

/-- The poll of STOP is one read of CR, over exactly where STOP is 0 (R120, R156). -/
theorem lineEffect_pollStop {s : State} {met : Bool} (h : (!s.cr.stop) = met) :
    lineEffect (.poll .stopSent) s = some ({ s with rxWindowOpen := false }, met) := by
  subst h
  rfl

/-- Settles O36: SET_START has an effect in IDLE with STOP = 0, and the poll of SB is the last line. -/
theorem beginRequestsAndAwaitsStart : Obligations.BeginRequestsAndAwaitsStart := by
  intro s hr hb
  refine ⟨fun hmpc hcls htxn hp hstop => ?_, fun hmpc hsb => ?_, fun hmpc hsb => ?_⟩
  · exact exec_of_first_line (i := .beginTxn) hr hb rfl hmpc hcls (htxn ▸ rfl) rfl (by decide)
      (lineEffect_access (a := .setStart) (if_pos ⟨hp, hstop⟩))
  · exact exec_of_last_line (i := .beginTxn) hr hb rfl hmpc one_ne_zero rfl rfl (lineEffect_poll nofun hsb)
  · exact exec_of_line_again (i := .beginTxn) hr hb rfl hmpc one_ne_zero rfl (lineEffect_poll nofun hsb)

/-- Settles O37: the DR write, the poll of ADDR and AF and the two status reads are the four lines, and the last one sets `txn` from bit 0. -/
theorem addressWritesAndAwaitsTheAnswer : Obligations.AddressWritesAndAwaitsTheAnswer := by
  intro s a hr hb
  refine ⟨fun hmpc hcls htxn t ht => ?_, fun hmpc hanswer => ?_, fun hmpc haddr haf => ?_, fun hmpc => ?_, fun hmpc => ?_⟩
  · exact exec_of_first_line (i := .address a) hr hb rfl hmpc hcls (htxn ▸ rfl) rfl (by simp [actionCount])
      (lineEffect_access (a := .wrDr a) ht)
  · exact exec_of_line_over (i := .address a) hr hb rfl hmpc one_ne_zero rfl (by simp [actionCount])
      (lineEffect_poll nofun (by simpa [condMet] using hanswer))
  · exact exec_of_line_again (i := .address a) hr hb rfl hmpc one_ne_zero rfl (lineEffect_poll nofun (by simp [condMet, haddr, haf]))
  · exact exec_of_line_over (i := .address a) hr hb rfl hmpc two_ne_zero rfl (by simp [actionCount])
      (lineEffect_access (a := .read .sr1) rfl)
  · exact exec_of_last_line (i := .address a) hr hb rfl hmpc three_ne_zero rfl rfl (lineEffect_access (a := .read .sr2) rfl)

/-- Settles O38: the DR write is the first line, the poll of BTF the last. -/
theorem writeByteSendsAndAwaitsTheByte : Obligations.WriteByteSendsAndAwaitsTheByte := by
  intro s b hr hb
  refine ⟨fun hmpc hcls htxn t ht => ?_, fun hmpc hbtf => ?_, fun hmpc hbtf => ?_⟩
  · exact exec_of_first_line (i := .writeByte b) hr hb rfl hmpc hcls (by rcases htxn with htxn | htxn <;> rw [htxn] <;> rfl) rfl
      (by simp [actionCount]) (lineEffect_access (a := .wrDr b) ht)
  · exact exec_of_last_line (i := .writeByte b) hr hb rfl hmpc one_ne_zero rfl rfl (lineEffect_poll nofun hbtf)
  · exact exec_of_line_again (i := .writeByte b) hr hb rfl hmpc one_ne_zero rfl (lineEffect_poll nofun hbtf)

/-- A read of DR into `tmp` takes DR and clears RXNE where RXNE is 1, and takes a draw where it is 0 (R109, R155). -/
theorem lineEffect_readTmp (s : State) :
    (s.sr1.rxne = true → lineEffect .readTmp s =
      some ({ s with rxWindowOpen := false, sr1 := { s.sr1 with rxne := false }, tmp := s.dr }, true)) ∧
    (s.sr1.rxne = false → lineEffect .readTmp s =
      some ({ s with rxWindowOpen := false, draws := s.draws + 1, tmp := Config.freeByte s.draws }, true)) := by
  constructor <;> intro h <;> simp [lineEffect, drRead, drByte, h]

/-- Settles O39: ACK is cleared by the first line and set by the last, which logs `tmp`; the poll of RXNE and the DR read lie between. -/
theorem readByteTakesOneByte : Obligations.ReadByteTakesOneByte := by
  intro s hr hb
  refine ⟨fun hmpc hcls htxn => ?_, fun hmpc hrxne => ?_, fun hmpc hrxne => ?_, fun hmpc hrxne => ?_, fun hmpc hrxne => ?_,
    fun hmpc => ?_⟩
  · exact exec_of_first_line (i := .readByte) hr hb rfl hmpc hcls (htxn ▸ rfl) rfl (by decide)
      (lineEffect_access (a := .clrAck) rfl)
  · exact exec_of_line_over (i := .readByte) hr hb rfl hmpc one_ne_zero rfl (by decide) (lineEffect_poll nofun hrxne)
  · exact exec_of_line_again (i := .readByte) hr hb rfl hmpc one_ne_zero rfl (lineEffect_poll nofun hrxne)
  · exact exec_of_line_over (i := .readByte) hr hb rfl hmpc two_ne_zero rfl (by decide) ((lineEffect_readTmp s).1 hrxne)
  · exact exec_of_line_over (i := .readByte) hr hb rfl hmpc two_ne_zero rfl (by decide) ((lineEffect_readTmp s).2 hrxne)
  · exact exec_of_last_line (i := .readByte) hr hb rfl hmpc three_ne_zero rfl rfl (lineEffect_access (a := .setAck) rfl)

/-- Settles O40: SET_STOP has an effect in MT_BTF and MR_DONE with START = 0, and the poll of STOP is the last line. -/
theorem endRequestsAndAwaitsStop : Obligations.EndRequestsAndAwaitsStop := by
  intro s hr hb
  refine ⟨fun hmpc hcls htxn hp hstart => ?_, fun hmpc hstop => ?_, fun hmpc hstop => ?_⟩
  · exact exec_of_first_line (i := .endTxn) hr hb rfl hmpc hcls (by rcases htxn with htxn | htxn <;> rw [htxn] <;> rfl) rfl
      (by decide) (lineEffect_access (a := .setStop) (if_pos ⟨hp, hstart⟩))
  · exact exec_of_last_line (i := .endTxn) hr hb rfl hmpc one_ne_zero rfl rfl (lineEffect_pollStop (by simp [hstop]))
  · exact exec_of_line_again (i := .endTxn) hr hb rfl hmpc one_ne_zero rfl (lineEffect_pollStop (by simp [hstop]))

end Sys2Proof.Machine
end

section
/-! The protocol points of a Txn-class program: which line leads from which point to which, and that its effect does (R150, R157, R158). -/

namespace Sys2Proof.Machine

/-- `p.Leads act q`: a Txn-class program at `p` may perform the line `act`, and stands at `q` once the line is over (R152–R156). -/
inductive Point.Leads : Point → Action → Point → Prop where
  | setStart : Leads .idle (.access .setStart) .startAsked
  | startSent : Leads .startAsked (.poll .startSent) .started
  | sendAddress (a : Byte) : Leads .started (.access (.wrDr a)) (.addressed (isRead a))
  | addressAnswered (rd : Bool) : Leads (.addressed rd) (.poll .addressAnswered) (.answered rd)
  | readSr1 (rd : Bool) : Leads (.answered rd) (.access (.read .sr1)) (.answered rd)
  | readSr2 (rd : Bool) : Leads (.answered rd) (.access (.read .sr2)) (if rd then .recvReady else .sendReady)
  | sendFirst (b : Byte) : Leads .sendReady (.access (.wrDr b)) .byteSent
  | sendNext (b : Byte) : Leads .wrote (.access (.wrDr b)) .byteSent
  | byteFinished : Leads .byteSent (.poll .byteFinished) .wrote
  | clrAck : Leads .recvReady (.access .clrAck) .ackOff
  | byteReceived : Leads .ackOff (.poll .byteReceived) .rxSeen
  | readTmp : Leads .rxSeen .readTmp .rxTaken
  | setAck : Leads .rxTaken (.access .setAck) .readDone
  | stopWrite : Leads .wrote (.access .setStop) .stopAsked
  | stopRead : Leads .readDone (.access .setStop) .stopAsked
  | stopSent : Leads .stopAsked (.poll .stopSent) .idle

/-- A line has its effect at its point, which is left for the next one exactly where the line is over. -/
theorem Point.Leads.exists_lineEffect {p q : Point} {act : Action} {s : State} (hl : p.Leads act q) (h : p.holds s = true) :
    ∃ t ends, lineEffect act s = some (t, ends) ∧ (if ends then q else p).holds t = true := by
  cases hl <;>
    simp only [Point.holds, noRequest, busIdle, nacked, Option.map_eq_some_iff, addressInFlight_eq_some_iff,
      Option.isSome_iff_exists, byteInFlight_eq_some_iff, Bool.and_eq_true, Bool.not_eq_true', decide_eq_true_eq] at h
  case setStart =>
    obtain ⟨⟨hp, hf, hl, hd, hw⟩, hstart, hstop⟩ := h
    exact ⟨_, _, lineEffect_access (a := .setStart) (if_pos ⟨hp, hstop⟩), by simp [Point.holds, *]⟩
  case startSent =>
    obtain ⟨hstop, hl, hd, hw, ⟨hp, hf, hstart⟩ | ⟨hp, hf, hstart⟩⟩ := h
    all_goals
      exact ⟨_, _, lineEffect_poll nofun rfl, by simp [Point.holds, noRequest, condMet, sr1Read, noFlags, disarmed, *]⟩
  case sendAddress a =>
    obtain ⟨⟨hstart, hstop⟩, hp, hf, hl, hd, hw⟩ := h
    exact ⟨_, _, lineEffect_access (a := .wrDr a) (if_pos ⟨hp, by simp [hf], by simp [hl]⟩),
      by simp [Point.holds, noRequest, addressInFlight, noFlags, disarmed, *]⟩
  case addressAnswered rd =>
    obtain ⟨⟨hstart, hstop⟩, ⟨⟨a, hp, hrd⟩, hf, hl, hd, hw⟩ | ⟨hp, hf, hl, hd, hw⟩ | ⟨hp, hf, hl, hd, hw⟩⟩ := h
    all_goals
      exact ⟨_, _, lineEffect_poll nofun rfl,
        by simp [Point.holds, noRequest, nacked, addressInFlight, condMet, sr1Read, noFlags, disarmed, *]⟩
  case readSr1 rd =>
    obtain ⟨⟨hstart, hstop⟩, ⟨hp, hf, hl, hd, hw⟩ | ⟨hp, hf, hl, hd, hw⟩⟩ := h
    all_goals
      exact ⟨_, _, lineEffect_access (a := .read .sr1) rfl,
        by simp [Point.holds, noRequest, nacked, sr1Read, noFlags, disarmed, *]⟩
  case readSr2 rd =>
    obtain ⟨⟨hstart, hstop⟩, ⟨hp, hf, hl, hd, hw⟩ | ⟨hp, hf, hl, hd, hw⟩⟩ := h
    all_goals
      refine ⟨_, _, lineEffect_access (a := .read .sr2) rfl, ?_⟩
      cases rd <;> simp [Point.holds, noRequest, nacked, sr2Read, noFlags, disarmed, *]
  case sendFirst b =>
    obtain ⟨⟨hstart, hstop⟩, ⟨hp, hf, hl, hd, hw⟩ | ⟨hp, hf, hl, hd, hw⟩⟩ := h
    · exact ⟨_, _, lineEffect_access (a := .wrDr b) (by rw [accessEffect, drWrite, if_neg (by simp [hp]), if_pos hp]),
        by simp [Point.holds, noRequest, byteInFlight, *]⟩
    · exact ⟨_, _, lineEffect_access (a := .wrDr b)
          (by rw [accessEffect, drWrite, if_neg (by simp [hp]), if_neg (by simp [hp]), if_neg (by simp [hp]), if_pos hp]),
        by simp [Point.holds, noRequest, nacked, byteInFlight, *]⟩
  case sendNext b =>
    obtain ⟨⟨hstart, hstop⟩, hp, hf, hl, hd, hw⟩ := h
    exact ⟨_, _, lineEffect_access (a := .wrDr b)
        (by rw [accessEffect, drWrite, if_neg (by simp [hp]), if_neg (by simp [hp]), if_pos ⟨hp, by simp [hf], by simp [hl]⟩]),
      by simp [Point.holds, noRequest, byteInFlight, noFlags, disarmed, *]⟩
  case byteFinished =>
    obtain ⟨⟨hstart, hstop⟩, ⟨⟨b, hp⟩, hf, hl, hd, hw⟩ | ⟨hp, hf, hl, hd, hw⟩ | ⟨hp, hf, hl, hd, hw⟩⟩ := h
    all_goals
      exact ⟨_, _, lineEffect_poll nofun rfl,
        by simp [Point.holds, noRequest, nacked, byteInFlight, condMet, sr1Read, noFlags, disarmed, *]⟩
  case clrAck =>
    obtain ⟨⟨hstart, hstop⟩, ⟨hp, hf, hl, hd, hw⟩ | ⟨-, hp, hf, hl, hd⟩ | ⟨hp, hf, hl, hd, hw⟩⟩ := h
    all_goals
      exact ⟨_, _, lineEffect_access (a := .clrAck) rfl, by simp [Point.holds, noRequest, nacked, ackWrite, *]⟩
  case byteReceived =>
    obtain ⟨⟨hstart, hstop⟩, hack, ⟨hp, hf, hl, hd, hw⟩ | ⟨hp, hf, hl, hd, hw⟩ | ⟨hp, hf, hl, hd, hw⟩⟩ := h
    all_goals
      exact ⟨_, _, lineEffect_poll nofun rfl,
        by simp [Point.holds, noRequest, nacked, condMet, sr1Read, noFlags, disarmed, *]⟩
  case readTmp =>
    obtain ⟨⟨hstart, hstop⟩, hack, hp, hf, hl, hd, hw⟩ := h
    exact ⟨_, _, (lineEffect_readTmp s).1 (by simp [hf]), by simp [Point.holds, noRequest, noFlags, *]⟩
  case setAck =>
    obtain ⟨⟨hstart, hstop⟩, hack, hp, hf, hl, hd, hw⟩ := h
    exact ⟨_, _, lineEffect_access (a := .setAck) rfl, by simp [Point.holds, noRequest, ackWrite, *]⟩
  case stopWrite =>
    obtain ⟨⟨hstart, hstop⟩, hp, hf, hl, hd, hw⟩ := h
    exact ⟨_, _, lineEffect_access (a := .setStop) (if_pos ⟨.inl hp, hstart⟩), by simp [Point.holds, *]⟩
  case stopRead =>
    obtain ⟨⟨hstart, hstop⟩, hack, hp, hf, hl, hd, hw⟩ := h
    exact ⟨_, _, lineEffect_access (a := .setStop) (if_pos ⟨.inr hp, hstart⟩), by simp [Point.holds, *]⟩
  case stopSent =>
    obtain ⟨hstart, ⟨hstop, hp, hf, hl, hd, hw⟩ | ⟨hstop, hp, hf, hl, hd, hw⟩ | ⟨⟨hp, hf, hl, hd, hw⟩, -, hstop⟩⟩ := h
    all_goals
      exact ⟨_, _, lineEffect_pollStop rfl, by simp [Point.holds, busIdle, noRequest, *]⟩

/-! ### The controller's steps (R130–R134) -/

/-- Where a controller step can find a Txn-class program: the phase, with the request it serves, tells the point. -/
theorem Point.eq_of_phase {p : Point} {s : State} (h : p.holds s = true) :
    (s.phase = .idle → s.cr.start = true → p = .startAsked) ∧
    (∀ a, s.phase = .msAddrTx a → p = .addressed (isRead a)) ∧
    (∀ b, s.phase = .mtTx b → p = .byteSent) ∧
    (s.phase = .mrRx → p = .recvReady ∨ p = .ackOff) ∧
    (s.phase = .mtBtf ∨ s.phase = .mrDone → s.cr.stop = true → p = .stopAsked) := by
  cases p <;>
    simp only [Point.holds, noRequest, busIdle, nacked, Option.map_eq_some_iff, addressInFlight_eq_some_iff,
      Option.isSome_iff_exists, byteInFlight_eq_some_iff, Bool.and_eq_true, Bool.not_eq_true', decide_eq_true_eq] at h
  all_goals grind

/-- The point of a Txn-class program is kept by every controller step that records no fault; a byte is received at `recvReady` only
under `Free`, for the window is open (R43, R133). -/
theorem Point.holds_of_controllerEffect {p : Point} {s u : State} (h : p.holds s = true) (he : ControllerEffect s u)
    (hrx : s.phase = .mrRx → s.cfg.rxAckWindow = .free ∨ s.rxWindowOpen = false) : p.holds u = true := by
  obtain ⟨hstart, haddr, hbyte, hrecv, hstop⟩ := eq_of_phase h
  cases he with
  | start hp hs =>
    obtain rfl := hstart hp hs
    simp_all [Point.holds, noFlags, disarmed]
  | addressAcked a hp =>
    obtain rfl := haddr a hp
    simp_all [Point.holds, noFlags, disarmed, nacked, addressInFlight, noRequest]
  | byteAcked b hp =>
    obtain rfl := hbyte b hp
    simp_all [Point.holds, noFlags, disarmed, nacked, byteInFlight, noRequest]
  | nacked b hp =>
    rcases hp with hp | hp
    · obtain rfl := haddr b hp
      simp_all [Point.holds, noFlags, disarmed, nacked, addressInFlight, noRequest]
    · obtain rfl := hbyte b hp
      simp_all [Point.holds, noFlags, disarmed, nacked, byteInFlight, noRequest]
  | received b hp =>
    rcases hrecv hp with rfl | rfl <;> simp_all [Point.holds, noFlags, disarmed, nacked, noRequest]
  | stop hp hs =>
    obtain rfl := hstop hp hs
    rcases hp with hp | hp <;> simp_all [Point.holds, noFlags, disarmed, noRequest, busIdle]

/-! ### The commands as ways through the points (R150, R171, R172) -/

/-- The lines lead from the point `p` through the points of the list, one line to each. -/
def Point.Route : Point → List Action → List Point → Prop
  | _, [], [] => True
  | p, act :: acts, q :: qs => p.Leads act q ∧ Route q acts qs
  | _, _, _ => False

/-- Each line of a route leads from its point to the next one. -/
theorem Point.Route.leads {p : Point} {acts : List Action} {qs : List Point} (h : Route p acts qs) {k : Nat} {act : Action}
    (hact : acts[k]? = some act) : ∃ p' q, (p :: qs)[k]? = some p' ∧ qs[k]? = some q ∧ p'.Leads act q := by
  induction acts generalizing p qs k with
  | nil => simp at hact
  | cons a acts ih =>
    cases qs with
    | nil => exact h.elim
    | cons q qs =>
      obtain ⟨hl, hr⟩ := h
      cases k with
      | zero =>
        cases hact
        exact ⟨p, q, rfl, rfl, hl⟩
      | succ k => exact ih hr hact

/-- The composers address the device for a write and for a read (R72). -/
theorem isRead_addr (c : Config) : isRead (addrW c) = false ∧ isRead (addrR c) = true := by
  obtain ⟨-, -, hw, hr, -⟩ := addressBytesCarryDevAddr7 c
  exact ⟨hw, hr⟩

/-- The points between the actions of a Txn command: those `pointAt` gives, as a list. -/
def pointsInside : Instr → List Point
  | .beginTxn => [.startAsked]
  | .address a => [.addressed (isRead a), .answered (isRead a), .answered (isRead a)]
  | .writeByte _ => [.byteSent]
  | .readByte => [.ackOff, .rxSeen, .rxTaken]
  | .endTxn => [.stopAsked]
  | .readReg _ =>
    [.startAsked, .started, .addressed false, .answered false, .answered false, .sendReady, .byteSent, .wrote, .stopAsked, .idle,
     .startAsked, .started, .addressed true, .answered true, .answered true, .recvReady, .ackOff, .rxSeen, .rxTaken, .readDone,
     .stopAsked]
  | .writeReg _ _ =>
    [.startAsked, .started, .addressed false, .answered false, .answered false, .sendReady, .byteSent, .wrote, .byteSent, .wrote,
     .stopAsked]
  | .rdCr | .setStart | .setStop | .setAck | .clrAck | .rdSr1 | .rdSr2 | .wrDr _ | .rdDr => []

theorem pointAt_succ (i : Instr) (k : Nat) : pointAt i (k + 1) = (pointsInside i)[k]? := by cases i <;> rfl

theorem pointsInside_length (i : Instr) : (pointsInside i).length + 1 = actionCount i := by cases i <;> rfl

/-- A Txn command issued where it is legal goes from the point of `txn` to the point of the `txn` it leaves (R150). -/
theorem route_of_legal (c : Config) {i : Instr} {x : Txn} (hi : i.op.cls = .txn) (hx : legalIn i.op x = true) :
    Point.Route (pointOfTxn x) (actionsOf c i) (pointsInside i ++ [pointOfTxn (txnAfter i)]) := by
  cases i with
  | beginTxn =>
    obtain rfl : x = .idle := by simpa [Instr.op, legalIn] using hx
    exact ⟨.setStart, .startSent, trivial⟩
  | address a =>
    obtain rfl : x = .started := by simpa [Instr.op, legalIn] using hx
    have hend : pointOfTxn (txnAfter (.address a)) = if isRead a then .recvReady else .sendReady := by
      rw [txnAfter]
      split <;> rfl
    rw [hend]
    exact ⟨.sendAddress a, .addressAnswered _, .readSr1 _, .readSr2 _, trivial⟩
  | writeByte b =>
    obtain rfl | rfl : x = .addrW ∨ x = .wrote := by simpa [Instr.op, legalIn] using hx
    · exact ⟨.sendFirst b, .byteFinished, trivial⟩
    · exact ⟨.sendNext b, .byteFinished, trivial⟩
  | readByte =>
    obtain rfl : x = .addrR := by simpa [Instr.op, legalIn] using hx
    exact ⟨.clrAck, .byteReceived, .readTmp, .setAck, trivial⟩
  | endTxn =>
    obtain rfl | rfl : x = .wrote ∨ x = .read := by simpa [Instr.op, legalIn] using hx
    · exact ⟨.stopWrite, .stopSent, trivial⟩
    · exact ⟨.stopRead, .stopSent, trivial⟩
  | readReg sub =>
    obtain rfl : x = .idle := by simpa [Instr.op, legalIn] using hx
    obtain ⟨hw, hr⟩ := isRead_addr c
    exact ⟨.setStart, .startSent, hw ▸ .sendAddress _, .addressAnswered _, .readSr1 _, .readSr2 _, .sendFirst sub, .byteFinished,
      .stopWrite, .stopSent, .setStart, .startSent, hr ▸ .sendAddress _, .addressAnswered _, .readSr1 _, .readSr2 _, .clrAck,
      .byteReceived, .readTmp, .setAck, .stopRead, .stopSent, trivial⟩
  | writeReg sub value =>
    obtain rfl : x = .idle := by simpa [Instr.op, legalIn] using hx
    obtain ⟨hw, -⟩ := isRead_addr c
    exact ⟨.setStart, .startSent, hw ▸ .sendAddress _, .addressAnswered _, .readSr1 _, .readSr2 _, .sendFirst sub, .byteFinished,
      .sendNext value, .byteFinished, .stopWrite, .stopSent, trivial⟩
  | rdCr | setStart | setStop | setAck | clrAck | rdSr1 | rdSr2 | wrDr | rdDr => cases hi

end Sys2Proof.Machine
end

section
/-! The protocol invariant of Txn-class programs: the point a state stands at, kept by every host action and every controller step (R150, R157,
R158, R231). -/

namespace Sys2Proof.Machine

/-! ### Where a state stands -/

/-- The point the command, the action index and the grammar state of `s` name (R150, R151). -/
def StandsAt (p : Point) (s : State) : Prop :=
  if s.mpc = 0 then p = pointOfTxn s.txn
  else ∃ i, currentCommand s = some i ∧ legalIn i.op s.txn = true ∧ pointAt i s.mpc = some p

theorem atPoint_iff {s : State} : atPoint s = true ↔ ∃ p, StandsAt p s ∧ p.holds s = true := by
  unfold atPoint StandsAt
  split_ifs
  · simp
  · cases currentCommand s with
    | none => simp
    | some i => cases hp : pointAt i s.mpc <;> simp [hp]

/-- The point is read off the command, the action index and the grammar state alone. -/
theorem StandsAt.congr {p : Point} {s t : State} (h : StandsAt p s) (hcommand : currentCommand t = currentCommand s)
    (hmpc : t.mpc = s.mpc) (htxn : t.txn = s.txn) : StandsAt p t := by
  unfold StandsAt
  rwa [hcommand, hmpc, htxn]

/-- A point speaks of the controller alone. -/
theorem Point.holds_of_sameBus {s t : State} (hb : SameBus s t) (p : Point) : p.holds t = p.holds s := by
  rw [hb]
  cases p <;> rfl

theorem Point.holds_of_deviceMove {s t : State} (hd : DeviceMove s t) (p : Point) : p.holds t = p.holds s := by
  rw [hd.frame]
  cases p <;> rfl

/-- The action a legal Txn command names leads from the point the state stands at to the point of the next action, after the last one to the
point of the `txn` it leaves. -/
theorem StandsAt.leads {p : Point} {s : State} {i : Instr} {act : Action} (h : StandsAt p s) (hc : currentCommand s = some i)
    (hi : i.op.cls = .txn) (hlegal : legalIn i.op s.txn = true) (hact : (actionsOf s.cfg i)[s.mpc]? = some act) :
    ∃ q, p.Leads act q ∧
      if s.mpc + 1 = actionCount i then q = pointOfTxn (txnAfter i) else pointAt i (s.mpc + 1) = some q := by
  obtain ⟨p', q, hp', hq, hl⟩ := (route_of_legal s.cfg hi hlegal).leads hact
  have hlen := pointsInside_length i
  have hlt : s.mpc < actionCount i := actionsOf_length s.cfg i ▸ (List.getElem?_eq_some_iff.mp hact).1
  have hpp : p' = p := by
    unfold StandsAt at h
    split_ifs at h with h0
    · rw [h0] at hp'
      exact (Option.some.inj hp').symm.trans h.symm
    · obtain ⟨j, hj, -, hat⟩ := h
      obtain rfl := Option.some.inj (hj.symm.trans hc)
      obtain ⟨k, hk⟩ := Nat.exists_eq_succ_of_ne_zero h0
      rw [hk] at hp' hat
      rw [List.getElem?_cons_succ, List.getElem?_append_left (by omega), ← pointAt_succ] at hp'
      exact Option.some.inj (hp'.symm.trans hat)
  refine ⟨q, hpp ▸ hl, ?_⟩
  split_ifs with hlast
  · rw [List.getElem?_append_right (by omega), show s.mpc - (pointsInside i).length = 0 by omega] at hq
    exact (Option.some.inj hq).symm
  · rwa [List.getElem?_append_left (by omega), ← pointAt_succ] at hq

/-! ### The invariant before a fault -/

theorem txnInv_iff {s : State} :
    TxnInv s = true ↔ s.cfg.binding.wellFormed = true ∧
      (s.cls = none → s.mpc = 0 ∧ s.txn = .idle ∧ busIdle s = true) ∧
      (s.cls = some .txn → txnFaultAllowed s = true ∧ (s.fault = none → atPoint s = true)) := by
  unfold TxnInv
  rcases s.cls with _ | _ | _
  · simp [and_assoc]
  · simp
  · cases s.fault <;> simp

/-- Before a fault a program that is not of class Raw stands at a point, and at T_IDLE's until its first command has started. -/
theorem txnInv_iff_standsAt {s : State} (hf : s.fault = none) (hcls : s.cls ≠ some .raw) :
    TxnInv s = true ↔ s.cfg.binding.wellFormed = true ∧ (s.cls = none → s.mpc = 0 ∧ s.txn = .idle) ∧
      ∃ p, StandsAt p s ∧ p.holds s = true := by
  rw [txnInv_iff, ← atPoint_iff]
  rcases hc : s.cls with _ | _ | _
  · refine and_congr_right fun _ => ?_
    simp only [true_implies, reduceCtorEq, false_implies, and_true, and_assoc]
    refine and_congr_right fun hmpc => and_congr_right fun htxn => ?_
    rw [atPoint, if_pos hmpc, htxn]
    rfl
  · exact absurd hc hcls
  · simp [hf, txnFaultAllowed]

/-- A Raw-class program is not constrained. -/
theorem txnInv_of_raw {s : State} (hb : s.cfg.binding.wellFormed = true) (h : s.cls = some .raw) : TxnInv s = true :=
  txnInv_iff.mpr ⟨hb, by simp [h], by simp [h]⟩

/-- Recording a fault keeps the invariant, if a Txn-class program may record it. -/
theorem txnInv_raiseFault {s : State} {r : FaultReason} (h : TxnInv s = true)
    (hr : s.cls = some .txn → txnFaultAllowed (raiseFault r s) = true) : TxnInv (raiseFault r s) = true := by
  obtain ⟨hb, hnone, -⟩ := txnInv_iff.mp h
  exact txnInv_iff.mpr ⟨hb, hnone, fun hc => ⟨hr hc, nofun⟩⟩

/-- At its point, the action a legal Txn command names has an effect, which leaves the point for the next one where the line is over
(R157, R158). -/
theorem txnInv_lineEffect {s : State} {i : Instr} {act : Action} (h : TxnInv s = true) (hf : s.fault = none) (hcls : s.cls ≠ some .raw)
    (hc : currentCommand s = some i) (hi : i.op.cls = .txn) (hlegal : legalIn i.op s.txn = true)
    (hact : (actionsOf s.cfg i)[s.mpc]? = some act) :
    ∃ p q t ends, StandsAt p s ∧ lineEffect act s = some (t, ends) ∧ (if ends then q else p).holds t = true ∧
      if s.mpc + 1 = actionCount i then q = pointOfTxn (txnAfter i) else pointAt i (s.mpc + 1) = some q := by
  obtain ⟨-, -, p, hp, hholds⟩ := (txnInv_iff_standsAt hf hcls).mp h
  obtain ⟨q, hl, hnext⟩ := hp.leads hc hi hlegal hact
  obtain ⟨t, ends, he, ht⟩ := hl.exists_lineEffect hholds
  exact ⟨p, q, t, ends, hp, he, ht, hnext⟩

/-- Settles O54: the action leads on from the point the state stands at, and a line that has an effect is admitted. -/
theorem txnAccessesAreAdmitted : Obligations.TxnAccessesAreAdmitted := by
  intro s i act h hf hcls hc hi hlegal hact
  obtain ⟨p, q, t, ends, -, he, -⟩ := txnInv_lineEffect h hf hcls hc hi hlegal hact
  exact admitted_of_lineEffect (txnInv_iff.mp h).1 he

/-! ### Host actions -/

/-- A Txn-class program that stands at its point meets the invariant. -/
theorem txnInv_of_standsAt {p : Point} {s : State} (hb : s.cfg.binding.wellFormed = true) (hf : s.fault = none)
    (hcls : s.cls = some .txn) (hp : StandsAt p s) (hholds : p.holds s = true) : TxnInv s = true :=
  (txnInv_iff_standsAt hf (by simp [hcls])).mpr ⟨hb, by simp [hcls], p, hp, hholds⟩

/-- An action that is over stands at the next action's point, after the last one at the point of the `txn` the command leaves (R151). -/
theorem txnInv_advance {q : Point} {i : Instr} {u : State} (hb : u.cfg.binding.wellFormed = true) (hf : u.fault = none)
    (hcls : u.cls = some .txn) (hc : currentCommand u = some i) (hlegal : legalIn i.op u.txn = true) (hholds : q.holds u = true)
    (hnext : if u.mpc + 1 = actionCount i then q = pointOfTxn (txnAfter i) else pointAt i (u.mpc + 1) = some q) :
    TxnInv (advance (u.mpc + 1 == actionCount i) (completionOf i) u) = true := by
  by_cases hlast : u.mpc + 1 = actionCount i
  · rw [if_pos hlast] at hnext
    rw [advance, if_pos (by simp [hlast])]
    have hbus : SameBus u { completionOf i u with cc := u.cc + 1, mpc := 0 } := (sameBus_completionOf i u).trans rfl
    refine txnInv_of_standsAt (p := q) (hbus.cfg ▸ hb) ((completionOf_fault i u).trans hf) ((completionOf_cls i u).trans hcls) ?_
      ((q.holds_of_sameBus hbus).trans hholds)
    rw [StandsAt, if_pos rfl, hnext, completionOf_txn]
  · rw [if_neg hlast] at hnext
    rw [advance, if_neg (by simp [hlast])]
    have hbus : SameBus u { u with mpc := u.mpc + 1 } := rfl
    refine txnInv_of_standsAt (p := q) hb hf hcls ?_ ((q.holds_of_sameBus hbus).trans hholds)
    rw [StandsAt, if_neg (Nat.succ_ne_zero _)]
    exact ⟨i, hc, hlegal, hnext⟩

/-- One action of a legal Txn command keeps the invariant: a poll that is not over stays at its point, an action that is over moves to the
next one (R150, R151). -/
theorem txnInv_performAction {s : State} {i : Instr} {act : Action} (h : TxnInv s = true) (hf : s.fault = none)
    (hcls : s.cls ≠ some .raw) (hc : currentCommand s = some i) (hi : i.op.cls = .txn) (hlegal : legalIn i.op s.txn = true)
    (hact : (actionsOf s.cfg i)[s.mpc]? = some act) :
    TxnInv (performAction act (s.mpc + 1 == actionCount i) (completionOf i) s) = true := by
  obtain ⟨hb, hstart, -⟩ := (txnInv_iff_standsAt hf hcls).mp h
  obtain ⟨p, q, t, ends, hp, he, hholds, hnext⟩ := txnInv_lineEffect h hf hcls hc hi hlegal hact
  obtain ⟨hcfg, hcmds, hcc, hmpc, hfault, htcls, htxn⟩ := lineEffect_frame hb he
  have hstarted : (if s.mpc = 0 then some .txn else t.cls) = some CmdClass.txn := by
    split_ifs with h0
    · rfl
    · rw [htcls]
      rcases hs : s.cls with _ | _ | _
      · exact absurd (hstart hs).1 h0
      · exact absurd hs hcls
      · rfl
  have hbus : SameBus t { t with cls := some .txn } := rfl
  have hcommand : currentCommand { t with cls := some .txn } = currentCommand s := currentCommand_congr hcmds hcc
  rw [performAction_of_lineEffect hb he, hstarted]
  cases ends with
  | false =>
    exact txnInv_of_standsAt (hcfg ▸ hb) (hfault.trans hf) rfl (hp.congr hcommand hmpc htxn) ((p.holds_of_sameBus hbus).trans hholds)
  | true =>
    rw [← hmpc] at hnext ⊢
    exact txnInv_advance (u := { t with cls := some .txn }) (hcfg ▸ hb) (hfault.trans hf) rfl (hcommand.trans hc) (htxn ▸ hlegal)
      ((q.holds_of_sameBus hbus).trans hholds) hnext

/-- A command that is under way is the Txn command whose action `mpc` names, and is legal in `txn`. -/
theorem txnInv_underWay {s : State} {i : Instr} (h : TxnInv s = true) (hf : s.fault = none) (hcls : s.cls ≠ some .raw)
    (hc : currentCommand s = some i) (h0 : s.mpc ≠ 0) : legalIn i.op s.txn = true := by
  obtain ⟨-, -, p, hp, -⟩ := (txnInv_iff_standsAt hf hcls).mp h
  rw [StandsAt, if_neg h0] at hp
  obtain ⟨j, hj, hlegal, -⟩ := hp
  rwa [Option.some.inj (hc.symm.trans hj)]

theorem fault_eq_none_of_running {s : State} (h : running s = true) : s.fault = none := by
  simp only [running, Bool.and_eq_true, beq_iff_eq] at h
  exact h.1

/-- A later action leaves the class as it is (R24). -/
theorem performAction_cls_of_ne {act : Action} {last : Bool} {i : Instr} {s : State} (h0 : s.mpc ≠ 0) :
    (performAction act last (completionOf i) s).cls = s.cls := by
  obtain ⟨-, -, -, -, -, -, -, hcls, -⟩ := afterAccess_frame act.accessOf s
  rcases performAction_cases act last (completionOf i) s with ⟨-, heq⟩ | ⟨-, heq⟩
  · simp [heq]
  · rw [heq]
    cases act.over s <;> cases last <;> simp [advance, h0, hcls, completionOf_cls]

/-- Every command is a raw command or a Txn command (R24). -/
theorem exec_eq_rawCommand_or_txnCommand (i : Instr) (s : State) :
    (∃ a, exec i s = rawCommand i.op a s) ∨
    (i.op.cls = .txn ∧ exec i s = txnCommand i.op (actionsOf s.cfg i) (completionOf i) s) := by
  cases i with
  | rdCr | setStart | setStop | setAck | clrAck | rdSr1 | rdSr2 | wrDr | rdDr => exact .inl ⟨_, rfl⟩
  | beginTxn | address | writeByte | readByte | endTxn | readReg | writeReg => exact .inr ⟨rfl, rfl⟩

/-- A Txn command keeps the invariant: it records a fault of R151's checks, or makes its action. -/
theorem txnInv_txnCommand {s t : State} {i : Instr} (h : TxnInv s = true) (hcls : s.cls ≠ some .raw) (hc : currentCommand s = some i)
    (hi : i.op.cls = .txn) (ht : txnCommand i.op (actionsOf s.cfg i) (completionOf i) s = .next t) : TxnInv t = true := by
  obtain ⟨hr, ⟨-, -, rfl⟩ | ⟨-, -, -, rfl⟩ | ⟨hchecks, act, hact, rfl⟩⟩ := txnCommand_next ht
  · exact txnInv_raiseFault h fun _ => rfl
  · exact txnInv_raiseFault h fun _ => rfl
  · have hf := fault_eq_none_of_running hr
    have hlegal : legalIn i.op s.txn = true := by
      by_cases h0 : s.mpc = 0
      · exact (hchecks h0).2
      · exact txnInv_underWay h hf hcls hc h0
    rw [actionsOf_length]
    exact txnInv_performAction h hf hcls hc hi hlegal hact

/-- A raw command keeps the invariant: it starts a Raw-class program, or in a Txn-class program only records `MixedCommandClass` (R24). -/
theorem txnInv_rawCommand {s t : State} {o : Op} {a : Access} (h : TxnInv s = true) (ht : rawCommand o a s = .next t) :
    TxnInv t = true := by
  obtain ⟨-, -, ⟨-, -, rfl⟩ | ⟨hadmits, -, rfl⟩ | ⟨-, rfl⟩⟩ := rawCommand_next ht
  · obtain ⟨hcfg, -⟩ := afterAccess_frame a s
    refine txnInv_of_raw ?_ rfl
    rw [completeRaw_cfg, hcfg]
    exact (txnInv_iff.mp h).1
  · exact txnInv_raiseFault h fun hc => by simp [classAdmits, hc] at hadmits
  · exact txnInv_raiseFault h fun _ => rfl

/-- A host action of a Raw-class program leaves it one: the class check keeps Txn commands from starting (R24). -/
theorem hostAction_cls_of_raw {s t : State} (hcls : s.cls = some .raw) (ht : hostAction s = .next t) : t.cls = some .raw := by
  rcases hostAction_next ht with ⟨w, i, -, -, hx⟩ | ⟨w, e, -, -, -, rfl⟩ | ⟨-, -, rfl⟩
  · rcases exec_eq_rawCommand_or_txnCommand i s with ⟨a, heq⟩ | ⟨-, heq⟩
    · obtain ⟨-, -, ⟨-, -, rfl⟩ | ⟨-, -, rfl⟩ | ⟨-, rfl⟩⟩ := rawCommand_next (heq ▸ hx)
      · rfl
      · exact hcls
      · exact hcls
    · obtain ⟨-, ⟨-, -, rfl⟩ | ⟨-, -, -, rfl⟩ | ⟨hchecks, act, -, rfl⟩⟩ := txnCommand_next (heq ▸ hx)
      · exact hcls
      · exact hcls
      · have h0 : s.mpc ≠ 0 := fun h0 => by simpa [classAdmits, hcls] using (hchecks h0).1
        exact (performAction_cls_of_ne h0).trans hcls
  · exact hcls
  · exact hcls

/-- A host action keeps the invariant. -/
theorem txnInv_hostAction {s t : State} (h : TxnInv s = true) (ht : hostAction s = .next t) : TxnInv t = true := by
  by_cases hcls : s.cls = some .raw
  · exact txnInv_of_raw ((kept_hostAction ht).cfg ▸ (txnInv_iff.mp h).1) (hostAction_cls_of_raw hcls ht)
  · rcases hostAction_next ht with ⟨w, i, hw, hd, hx⟩ | ⟨w, e, -, -, -, rfl⟩ | ⟨-, -, rfl⟩
    · have hc : currentCommand s = some i := currentCommand_eq_some_iff.mpr ⟨w, hw, hd⟩
      rcases exec_eq_rawCommand_or_txnCommand i s with ⟨a, heq⟩ | ⟨hi, heq⟩
      · exact txnInv_rawCommand h (heq ▸ hx)
      · exact txnInv_txnCommand h hcls hc hi (heq ▸ hx)
    · exact txnInv_raiseFault h fun _ => rfl
    · exact txnInv_raiseFault h fun _ => rfl

/-! ### Controller steps -/

/-- Only RxByte with ACK = 1 records a fault (R133). -/
theorem runStep_fault {c : ControllerStep} {s : State} (h : c = .rxByte → s.cr.ack = false) : (runStep c s).fault = s.fault := by
  cases c with
  | genStart => rw [runStep, genStart, (deviceMove_start _).frame]
  | addrTx =>
    rw [runStep]
    split
    · rw [addrTx, (deviceMove_addressed ..).frame]
      split <;> rfl
    · rfl
  | byteTx =>
    rw [runStep]
    split
    · rw [byteTx, (deviceMove_sent ..).frame]
      split <;> rfl
    · rfl
  | rxByte => rw [runStep, rxByte, if_neg (by simp [h rfl]), (deviceMove_read s).frame]
  | genStop => rw [runStep, genStop, (deviceMove_stop _).frame]

/-- An enabled step that records a fault is RxByte with ACK = 1; any other has its effect and queries the device (R130–R134). -/
theorem runStep_acked_or_effect {c : ControllerStep} {s : State} (h : enabled c s = true) :
    (c = .rxByte ∧ s.cr.ack = true ∧ ∃ b, runStep c s = raiseFault (.rxByteAcked b) s) ∨
    ((runStep c s).fault = none ∧ ∃ u, ControllerEffect s u ∧ DeviceMove u (runStep c s)) := by
  have hnone := fault_eq_none_of_enabled h
  by_cases hrx : c = .rxByte ∧ s.cr.ack = true
  · obtain ⟨rfl, hack⟩ := hrx
    exact .inl ⟨rfl, hack, readByte s, if_pos hack⟩
  · have hf : (runStep c s).fault = none := (runStep_fault fun hc => by simpa [hc] using hrx).trans hnone
    rcases runStep_effect h with ⟨b, heq⟩ | he
    · simp [heq] at hf
    · exact .inr ⟨hf, he⟩

/-- RxByte finds a Txn-class program with ACK = 1 only before READ_BYTE's first action, where the window is open, hence only under `Free`
(R43, R133, R231). -/
theorem rxAckWindow_of_acked {p : Point} {s : State} (h : p.holds s = true) (hp : s.phase = .mrRx) (hack : s.cr.ack = true)
    (hwindow : s.cfg.rxAckWindow = .free ∨ s.rxWindowOpen = false) : s.cfg.rxAckWindow = .free := by
  obtain ⟨-, -, -, hrecv, -⟩ := Point.eq_of_phase h
  rcases hrecv hp with rfl | rfl
  · simp_all [Point.holds, nacked]
  · simp_all [Point.holds]

/-- An enabled controller step keeps the invariant. -/
theorem txnInv_runStep {c : ControllerStep} {s : State} (h : TxnInv s = true) (hc : enabled c s = true) :
    TxnInv (runStep c s) = true := by
  obtain ⟨hcc, hmpc, -, -, htxn, hcls, -, -, -, hcfg, hcmds, -⟩ := controllerStepsFrame.1 s c hc
  have hb := (txnInv_iff.mp h).1
  by_cases hraw : s.cls = some .raw
  · exact txnInv_of_raw (hcfg ▸ hb) (hcls.trans hraw)
  have hwindow : s.phase = .mrRx → s.cfg.rxAckWindow = .free ∨ s.rxWindowOpen = false := fun hp => by
    obtain rfl : ControllerStep.rxByte = c := by simpa [hp, stepOfPhase] using stepOfPhase_of_enabled hc
    obtain ⟨-, -, -, -, hw⟩ := enabled_rxByte_iff.mp hc
    exact hw
  obtain ⟨-, hstart, p, hp, hholds⟩ := (txnInv_iff_standsAt (fault_eq_none_of_enabled hc) hraw).mp h
  rcases runStep_acked_or_effect hc with ⟨rfl, hack, b, heq⟩ | ⟨hf, u, he, hd⟩
  · obtain ⟨hphase, -⟩ := enabled_rxByte_iff.mp hc
    have hfree := rxAckWindow_of_acked hholds hphase hack (hwindow hphase)
    rw [heq]
    exact txnInv_raiseFault h fun _ => by simp [txnFaultAllowed, hfree]
  · refine (txnInv_iff_standsAt hf (hcls ▸ hraw)).mpr ⟨hcfg ▸ hb, by rwa [hcls, hmpc, htxn], p, ?_, ?_⟩
    · exact hp.congr (currentCommand_congr hcmds hcc) hmpc htxn
    · rw [p.holds_of_deviceMove hd]
      exact p.holds_of_controllerEffect hholds he hwindow

/-- Settles O52: the host's action moves on to the point of the next action, the controller's step stays at the point, and the faults they record
are those a Txn-class program may record. -/
theorem stepKeepsTxnInv : Obligations.StepKeepsTxnInv := by
  intro s t h hstep
  have h' : TxnInv (popSched s) = true := h
  rcases step_next_agent hstep with hh | ⟨c, hc, rfl⟩
  · exact txnInv_hostAction h' hh
  · exact txnInv_runStep h' hc

end Sys2Proof.Machine
end

section
/-! The composers line by line: what one line of any Txn command answers, and READ_REG and WRITE_REG as their lists of lines (R170–R172, R175). -/

namespace Sys2Proof.Machine

section
variable {i : Instr} {s t : State} {act : Action} {ends : Bool} (hr : running s = true) (hb : s.cfg.binding.wellFormed = true)
  (hi : i.op.cls = .txn) (hc : MayAct i s) (hact : (actionsOf s.cfg i)[s.mpc]? = some act) (h : lineEffect act s = some (t, ends))
include hr hb hi hc hact h

/-- A line of a Txn command that may act is its effect, with the class recorded where it starts the command: a poll that is not over stays, any
other line moves on, and the last one completes the command (R24, R120, R151). -/
theorem exec_of_line :
    let u := { t with cls := if s.mpc = 0 then some .txn else s.cls }
    (ends = false → exec i s = .next u) ∧
    (ends = true → s.mpc + 1 ≠ actionCount i → exec i s = .next { u with mpc := s.mpc + 1 }) ∧
    (ends = true → s.mpc + 1 = actionCount i → exec i s = .next { completionOf i u with cc := s.cc + 1, mpc := 0 }) := by
  obtain ⟨-, -, hcc, hmpc, -, hcls, -⟩ := lineEffect_frame hb h
  rw [exec_of_action hr hi hc hact, performAction_of_lineEffect hb h, hcls]
  refine ⟨?_, ?_, ?_⟩
  · rintro rfl
    rfl
  · rintro rfl hmore
    rw [beq_false_of_ne hmore, ← hmpc]
    rfl
  · rintro rfl hlast
    rw [hlast, beq_self_eq_true, ← hcc]
    rfl

end

/-- Settles O41: every line is `exec_of_line`; the last one, the poll of STOP, leaves `tmp` and the log to the completion. -/
theorem readRegPerformsItsLines : Obligations.ReadRegPerformsItsLines := by
  intro s t sub act ends hr hb hstart hact h
  have hc : MayAct (.readReg sub) s := fun h0 => ⟨(hstart h0).1, (hstart h0).2 ▸ rfl⟩
  obtain ⟨hagain, hover, hlast⟩ := exec_of_line (i := .readReg sub) hr hb rfl hc hact h
  refine ⟨hagain, fun he hne => hover he (by simpa [actionCount] using hne), fun he h21 => ?_⟩
  rw [hlast he (by rw [h21]; rfl)]
  rw [h21] at hact
  cases hact
  cases h
  rfl

/-- Settles O42: every line is `exec_of_line`, and the completion logs nothing. -/
theorem writeRegPerformsItsLines : Obligations.WriteRegPerformsItsLines := by
  intro s t sub value act ends hr hb hstart hact h
  have hc : MayAct (.writeReg sub value) s := fun h0 => ⟨(hstart h0).1, (hstart h0).2 ▸ rfl⟩
  obtain ⟨hagain, hover, hlast⟩ := exec_of_line (i := .writeReg sub value) hr hb rfl hc hact h
  refine ⟨hagain, fun he hne => hover he (by simpa [actionCount] using hne), fun he h11 => ?_⟩
  rw [hlast he (by rw [h11]; rfl)]
  rfl

/-- Settles O43: the lists are the same line by line. -/
theorem composersAreTheirPrimitives : Obligations.ComposersAreTheirPrimitives := fun _ _ _ => ⟨rfl, rfl⟩

end Sys2Proof.Machine
end

section
/-! Runs under every schedule: a state up to its schedule and its count of draws, and the two moves a run is made of, a host line that finds the
controller at rest and a poll that waits for the controller (R14, R59, R120; logs 2 and 3). -/

namespace Sys2Proof.Machine

/-! ### Runs -/

theorem reaches_refl (s : State) : reaches s s := ⟨0, rfl⟩

/-- A run goes on after its first step. -/
theorem reaches_of_step {s t u : State} (h : step s = .next t) (k : reaches t u) : reaches s u := by
  obtain ⟨n, hn⟩ := k
  exact ⟨n + 1, t, h, hn⟩

theorem runsTo_trans {m n : Nat} {s t u : State} (h : runsTo m s t) (k : runsTo n t u) : runsTo (m + n) s u := by
  induction m generalizing s with
  | zero =>
    rw [runsTo] at h
    rwa [Nat.zero_add, ← h]
  | succ m ih =>
    obtain ⟨v, hv, h⟩ := h
    rw [Nat.succ_add]
    exact ⟨v, hv, ih h⟩

theorem reaches_trans {s t u : State} (h : reaches s t) (k : reaches t u) : reaches s u := by
  obtain ⟨m, hm⟩ := h
  obtain ⟨n, hn⟩ := k
  exact ⟨m + n, runsTo_trans hm hn⟩

/-! ### A state up to its schedule and its count of draws -/

/-- `s` with another count of draws and under another schedule. -/
def rescheduled (d : Nat) (sc : List Agent) (s : State) : State := { s with draws := d, sched := sc }

/-- Under every schedule, and whatever was drawn before, a run from `s` comes to `t`. -/
def Arrives (s t : State) : Prop := ∀ d sc, ∃ d' sc', reaches (rescheduled d sc s) (rescheduled d' sc' t)

theorem Arrives.trans {s t u : State} (h : Arrives s t) (k : Arrives t u) : Arrives s u := fun d sc => by
  obtain ⟨d', sc', hst⟩ := h d sc
  obtain ⟨d'', sc'', htu⟩ := k d' sc'
  exact ⟨d'', sc'', reaches_trans hst htu⟩

/-- The line `act` is over at once in `s` and leaves `t`, under every schedule and whatever it draws. -/
def LineTakes (act : Action) (s t : State) : Prop :=
  ∀ d sc, ∃ d', lineEffect act (rescheduled d sc s) = some (rescheduled d' sc t, true)

/-- The controller step `c` has its turn in `s` and leaves `t`, under every schedule. -/
def StepTakes (c : ControllerStep) (s t : State) : Prop :=
  enabled c s = true ∧ ∀ d sc, runStep c (rescheduled d sc s) = rescheduled d sc t

/-- The controller waits for the host: it has no step where nothing is requested, no byte is in flight and, while it receives, the host is to be
first and has not yet made its access (R130–R134). -/
theorem controllerEnabled_of_noRequest {s : State} (h : noRequest s = true) (ha : addressInFlight s = none)
    (hb : byteInFlight s = none) (hrx : s.phase = .mrRx → s.cfg.rxAckWindow = .hostFirst ∧ s.rxWindowOpen = true) :
    controllerEnabled s = false := by
  simp only [noRequest, Bool.and_eq_true, Bool.not_eq_true'] at h
  obtain ⟨hstart, hstop⟩ := h
  refine controllerEnabled_eq_false_iff.mpr fun c => ?_
  cases c with
  | genStart => simp [enabled, genStartEnabled, hstart]
  | addrTx => simp [enabled, addrTxEnabled, ha]
  | byteTx => simp [enabled, byteTxEnabled, hb]
  | rxByte =>
    by_cases hp : s.phase = .mrRx
    · simp [enabled, rxByteEnabled, hrx hp]
    · simp [enabled, rxByteEnabled, hp]
  | genStop => simp [enabled, genStopEnabled, hstop]

/-! ### A composer on its way (R151, R170) -/

/-- The Txn command `i` at `cc` has the lines `acts` still to perform, on a bus that works, with the reference device present and the host ahead of
the received byte. -/
structure Composing (i : Instr) (acts : List Action) (s : State) : Prop where
  isTxn : i.op.cls = .txn
  lines : (actionsOf s.cfg i).drop s.mpc = acts
  command : currentCommand s = some i
  legal : legalIn i.op s.txn = true
  started : s.cls = some .txn ∨ s.cls = none ∧ s.mpc = 0
  running : running s = true
  binding : s.cfg.binding.wellFormed = true
  notStuck : s.cfg.busStuck = false
  hostFirst : s.cfg.rxAckWindow = .hostFirst
  pe : s.cr.pe = true
  device : s.device = .reference
  present : s.ref.present = true

section
variable {i : Instr} {act : Action} {acts : List Action} {s t : State}

theorem Composing.anySchedule (h : Composing i acts s) (d : Nat) (sc : List Agent) : Composing i acts (rescheduled d sc s) := { h with }

theorem Composing.fault (h : Composing i acts s) : s.fault = none := fault_eq_none_of_running h.running

theorem Composing.mayAct (h : Composing i acts s) : MayAct i s := fun h0 => by
  rcases h.started with hc | ⟨hc, -⟩ <;> exact ⟨by simp [hc], h.legal⟩

/-- The class is Txn once the line is made. -/
theorem Composing.cls_eq (h : Composing i acts s) : (if s.mpc = 0 then some .txn else s.cls) = some CmdClass.txn := by
  rcases h.started with hc | ⟨-, h0⟩
  · rw [hc, ite_self]
  · rw [if_pos h0]

theorem Composing.line_eq (h : Composing i (act :: acts) s) : (actionsOf s.cfg i)[s.mpc]? = some act := by
  rw [← List.head?_drop, h.lines, List.head?_cons]

theorem Composing.lines_next (h : Composing i (act :: acts) s) : (actionsOf s.cfg i).drop (s.mpc + 1) = acts := by
  rw [← List.drop_drop, h.lines, List.drop_one, List.tail_cons]

theorem Composing.actionCount_eq (h : Composing i (act :: acts) s) : actionCount i = s.mpc + 1 + acts.length := by
  have hlen := congrArg List.length h.lines
  rw [List.length_drop, actionsOf_length, List.length_cons] at hlen
  omega

/-- Where the host moves, the step is the command's. -/
theorem Composing.step_eq_exec (h : Composing i acts s) (hm : wanted s = .host ∨ controllerEnabled s = false) :
    step s = exec i (popSched s) := by
  obtain ⟨w, hw, hd⟩ := currentCommand_eq_some_iff.mp h.command
  have hhost : hostEnabled s = true := by simp [hostEnabled, h.fault, hw]
  rw [step_of_mover_host h.running (mover_eq_host_iff.mpr ⟨hhost, hm⟩)]
  exact hostAction_of_decode_ok (s := popSched s) hw hd

/-- Where the controller is asked for, the step is its own. -/
theorem Composing.step_eq_runStep (h : Composing i acts s) {c : ControllerStep} (hc : enabled c s = true)
    (hw : wanted s = .controller) : step s = .next (runStep c (popSched s)) := by
  have hm : mover s = some .controller := mover_eq_controller_iff.mpr ⟨controllerEnabled_iff.mpr ⟨c, hc⟩, .inl hw⟩
  rw [step_of_mover_controller h.running hm]
  exact controllerAction_of_enabled (s := popSched s) hc

/-- A line leaves alone what the command needs of the controller and the device. -/
theorem lineEffect_keeps {ends : Bool} (hb : s.cfg.binding.wellFormed = true) (h : lineEffect act s = some (t, ends)) :
    t.cr.pe = s.cr.pe ∧ t.device = s.device ∧ t.ref = s.ref := by
  rw [lineEffect_eq act s hb, Option.ite_none_right_eq_some, Option.some.injEq, Prod.mk.injEq] at h
  obtain ⟨-, rfl, -⟩ := h
  obtain ⟨-, -, -, -, -, -, -, -, -, hdevice, href, -⟩ := afterAccess_frame act.accessOf s
  exact ⟨(afterAccess_keeps act.accessOf s).1, hdevice, href⟩

/-- What the command needs is kept where parameters, stream, `cc`, `txn` and the fault stay, and the device and PE with them. -/
theorem Composing.of_frame {acts' : List Action} (h : Composing i acts s) (hcfg : t.cfg = s.cfg) (hcmds : t.cmds = s.cmds)
    (hcc : t.cc = s.cc) (htxn : t.txn = s.txn) (hfault : t.fault = s.fault) (hpe : t.cr.pe = s.cr.pe) (hdevice : t.device = s.device)
    (hpresent : t.ref.present = s.ref.present) (hcls : t.cls = some .txn) (hlines : (actionsOf s.cfg i).drop t.mpc = acts') :
    Composing i acts' t where
  isTxn := h.isTxn
  lines := hcfg ▸ hlines
  command := (currentCommand_congr hcmds hcc).trans h.command
  legal := htxn ▸ h.legal
  started := .inl hcls
  running := by
    have hr := h.running
    rwa [Machine.running, hfault, hcfg]
  binding := hcfg ▸ h.binding
  notStuck := hcfg ▸ h.notStuck
  hostFirst := hcfg ▸ h.hostFirst
  pe := hpe.trans h.pe
  device := hdevice.trans h.device
  present := hpresent.trans h.present

/-- The host's turn at a line that is over: the line's effect, and then the counters. -/
theorem Composing.step_line (h : Composing i (act :: acts) s) (hquiet : controllerEnabled s = false) (ht : LineTakes act s t)
    (d : Nat) (sc : List Agent) :
    ∃ d', (acts ≠ [] → step (rescheduled d sc s) = .next (rescheduled d' sc.tail { t with mpc := s.mpc + 1, cls := some .txn })) ∧
      (acts = [] → step (rescheduled d sc s) =
        .next (rescheduled d' sc.tail { completionOf i { t with cls := some .txn } with cc := s.cc + 1, mpc := 0 })) := by
  obtain ⟨d', hline⟩ := ht d sc.tail
  have hs := h.anySchedule d sc.tail
  obtain ⟨-, hover, hlast⟩ := exec_of_line hs.running hs.binding hs.isTxn hs.mayAct hs.line_eq hline
  rw [hs.cls_eq] at hover hlast
  have hcount := h.actionCount_eq
  rw [(h.anySchedule d sc).step_eq_exec (.inr hquiet)]
  refine ⟨d', fun hmore => hover rfl ?_, fun hnil => (hlast rfl ?_).trans ?_⟩
  · have := List.length_pos_iff.mpr hmore
    show s.mpc + 1 ≠ actionCount i
    omega
  · rw [hcount, hnil]
    rfl
  · cases i <;> rfl

/-- A line of the command that is over, with more to come, while the controller has no step: the host moves, whatever the schedule. -/
theorem Composing.line (h : Composing i (act :: acts) s) (hmore : acts ≠ []) (hquiet : controllerEnabled s = false)
    (ht : LineTakes act s t) :
    Composing i acts { t with mpc := s.mpc + 1, cls := some .txn } ∧ Arrives s { t with mpc := s.mpc + 1, cls := some .txn } := by
  constructor
  · obtain ⟨d, hline⟩ := ht s.draws s.sched
    obtain ⟨hcfg, hcmds, hcc, -, hfault, -, htxn⟩ := lineEffect_frame h.binding hline
    obtain ⟨hpe, hdevice, href⟩ := lineEffect_keeps h.binding hline
    exact h.of_frame hcfg hcmds hcc htxn hfault hpe hdevice (congrArg _ href) rfl h.lines_next
  · intro d sc
    obtain ⟨d', hover, -⟩ := h.step_line hquiet ht d sc
    exact ⟨d', sc.tail, reaches_of_step (hover hmore) (reaches_refl _)⟩

/-- The last line of the command completes it. -/
theorem Composing.last (h : Composing i [act] s) (hquiet : controllerEnabled s = false) (ht : LineTakes act s t) :
    Arrives s { completionOf i { t with cls := some .txn } with cc := s.cc + 1, mpc := 0 } := fun d sc => by
  obtain ⟨d', -, hlast⟩ := h.step_line hquiet ht d sc
  exact ⟨d', sc.tail, reaches_of_step (hlast rfl) (reaches_refl _)⟩

/-- A poll that is not over changes nothing but the draws where the window is closed and the latches hold the flags (R42, R43, R120). -/
theorem lineEffect_poll_waiting {c : Cond} (hwindow : s.rxWindowOpen = false) (harm : s.arm = armedBy s.sr1)
    (hmet : condMet c s = false) : ∃ d, lineEffect (.poll c) s = some (rescheduled d s.sched s, false) := by
  by_cases hc : c = .stopSent
  · subst hc
    refine ⟨s.draws, ?_⟩
    rw [lineEffect_pollStop hmet, ← hwindow]
    rfl
  · refine ⟨s.draws + 1, ?_⟩
    rw [lineEffect_poll hc hmet, sr1Read, ← hwindow, ← armedBy, ← harm]
    rfl

section
variable {c : Cond} (h : Composing i (.poll c :: acts) s) (hcls : s.cls = some .txn)
include h hcls

/-- The host's turn at a poll that waits: one more read, which changes nothing but the draws. -/
theorem Composing.step_poll_waiting (hwindow : s.rxWindowOpen = false) (harm : s.arm = armedBy s.sr1) (hmet : condMet c s = false)
    (d : Nat) (sc : List Agent) : ∃ d', step (rescheduled d (.host :: sc) s) = .next (rescheduled d' sc s) := by
  have hs := h.anySchedule d sc
  obtain ⟨d', hline⟩ := lineEffect_poll_waiting (s := rescheduled d sc s) hwindow harm hmet
  obtain ⟨hagain, -⟩ := exec_of_line hs.running hs.binding hs.isTxn hs.mayAct hs.line_eq hline
  rw [hs.cls_eq, ← hcls] at hagain
  exact ⟨d', ((h.anySchedule d (.host :: sc)).step_eq_exec (.inl rfl)).trans (hagain rfl)⟩

/-- A controller step that records no fault leaves the command where it is (R137). -/
theorem Composing.of_stepTakes {k : ControllerStep} (ht : StepTakes k s t) (hfault : t.fault = none) :
    Composing i (.poll c :: acts) t := by
  obtain ⟨hk, hstep⟩ := ht
  have heq : runStep k s = rescheduled s.draws s.sched t := hstep s.draws s.sched
  have hframe := controllerStepsFrame.1 s k hk
  have hpresent := (kept_runStep hk).present
  rw [heq] at hframe hpresent
  obtain ⟨hcc, hmpc, -, -, htxn, htcls, -, hpe, -, hcfg, hcmds, -, -, hdevice, -⟩ := hframe
  refine h.of_frame hcfg hcmds hcc htxn (hfault.trans h.fault.symm) hpe hdevice hpresent (htcls.trans hcls) ?_
  exact (congrArg (List.drop · (actionsOf s.cfg i)) hmpc).trans h.lines

/-- A poll that waits for a controller step: however often the schedule lets it read before, the step comes, and nothing else has moved. The
schedule is used up by the reads, and past its end the controller is first (log 2). -/
theorem Composing.wait {k : ControllerStep} (hwindow : s.rxWindowOpen = false) (harm : s.arm = armedBy s.sr1)
    (hmet : condMet c s = false) (ht : StepTakes k s t) (hfault : t.fault = none) :
    Composing i (.poll c :: acts) t ∧ Arrives s t := by
  refine ⟨h.of_stepTakes hcls ht hfault, fun d sc => ?_⟩
  obtain ⟨hk, hstep⟩ := ht
  have hturn (d : Nat) (sc : List Agent) (hw : wanted (rescheduled d sc s) = .controller) :
      step (rescheduled d sc s) = .next (rescheduled d sc.tail t) :=
    ((h.anySchedule d sc).step_eq_runStep hk hw).trans (congrArg _ (hstep d sc.tail))
  induction sc generalizing d with
  | nil => exact ⟨d, [], reaches_of_step (hturn d [] rfl) (reaches_refl _)⟩
  | cons agent sc ih =>
    cases agent with
    | controller => exact ⟨d, sc, reaches_of_step (hturn d (.controller :: sc) rfl) (reaches_refl _)⟩
    | host =>
      obtain ⟨d', hpoll⟩ := h.step_poll_waiting hcls hwindow harm hmet d sc
      obtain ⟨d'', sc', hrun⟩ := ih d'
      exact ⟨d'', sc', reaches_of_step hpoll hrun⟩

end
end

end Sys2Proof.Machine
end

section
/-! What a line and a controller step take a state to, one rule each, where the device is the reference device and acknowledges (R101–R109,
R120, R130–R134, R142–R145). -/

namespace Sys2Proof.Machine

/-! ### Lines -/

section
variable {s : State}

theorem lineTakes_setStart (hp : s.phase = .idle) (hstop : s.cr.stop = false) :
    LineTakes (.access .setStart) s { s with rxWindowOpen := false, cr := { s.cr with start := true } } :=
  fun d _ => ⟨d, lineEffect_access (a := .setStart) (if_pos ⟨hp, hstop⟩)⟩

theorem lineTakes_setStop (hp : s.phase = .mtBtf ∨ s.phase = .mrDone) (hstart : s.cr.start = false) :
    LineTakes (.access .setStop) s { s with rxWindowOpen := false, cr := { s.cr with stop := true } } :=
  fun d _ => ⟨d, lineEffect_access (a := .setStop) (if_pos ⟨hp, hstart⟩)⟩

theorem lineTakes_setAck :
    LineTakes (.access .setAck) s { s with rxWindowOpen := false, cr := { s.cr with ack := true } } :=
  fun d _ => ⟨d, lineEffect_access (a := .setAck) rfl⟩

theorem lineTakes_clrAck :
    LineTakes (.access .clrAck) s { s with rxWindowOpen := false, cr := { s.cr with ack := false } } :=
  fun d _ => ⟨d, lineEffect_access (a := .clrAck) rfl⟩

/-- The address byte, once SB is seen. -/
theorem lineTakes_wrDr_of_msSb {b : Byte} (hp : s.phase = .msSb) (hflag : s.sr1.sb = true) (harm : s.arm.sb = true) :
    LineTakes (.access (.wrDr b)) s { s with
      rxWindowOpen := false, dr := b, phase := .msAddrTx b
      sr1 := { s.sr1 with sb := false }, arm := { s.arm with sb := false } } :=
  fun d _ => ⟨d, lineEffect_access (a := .wrDr b) (if_pos ⟨hp, hflag, harm⟩)⟩

theorem drWrite_of_mtReady (hp : s.phase = .mtReady) (b : Byte) :
    drWrite b s = some { s with rxWindowOpen := false, dr := b, phase := .mtTx b } := by
  rw [drWrite, if_neg (by simp [hp]), if_pos hp]

theorem drWrite_of_mtBtf (hp : s.phase = .mtBtf) (hflag : s.sr1.btf = true) (harm : s.arm.btf = true) (b : Byte) :
    drWrite b s = some { s with
      rxWindowOpen := false, dr := b, phase := .mtTx b
      sr1 := { s.sr1 with btf := false }, arm := { s.arm with btf := false } } := by
  rw [drWrite, if_neg (by simp [hp]), if_neg (by simp [hp]), if_pos ⟨hp, hflag, harm⟩]

/-- The first data byte of a transaction. -/
theorem lineTakes_wrDr_of_mtReady {b : Byte} (hp : s.phase = .mtReady) :
    LineTakes (.access (.wrDr b)) s { s with rxWindowOpen := false, dr := b, phase := .mtTx b } :=
  fun d sc => ⟨d, lineEffect_access (a := .wrDr b) (drWrite_of_mtReady (s := rescheduled d sc s) hp b)⟩

/-- A later data byte, once BTF is seen. -/
theorem lineTakes_wrDr_of_mtBtf {b : Byte} (hp : s.phase = .mtBtf) (hflag : s.sr1.btf = true) (harm : s.arm.btf = true) :
    LineTakes (.access (.wrDr b)) s { s with
      rxWindowOpen := false, dr := b, phase := .mtTx b
      sr1 := { s.sr1 with btf := false }, arm := { s.arm with btf := false } } :=
  fun d sc => ⟨d, lineEffect_access (a := .wrDr b) (drWrite_of_mtBtf (s := rescheduled d sc s) hp hflag harm b)⟩

theorem lineTakes_readSr1 : LineTakes (.access (.read .sr1)) s { s with rxWindowOpen := false, arm := armedBy s.sr1 } :=
  fun d _ => ⟨d + 1, lineEffect_access (a := .read .sr1) rfl⟩

theorem sr2Read_of_armed (harm : s.arm.addr = true) (hflag : s.sr1.addr = true) :
    sr2Read s = { s with
      rxWindowOpen := s.dir, draws := s.draws + 1, phase := if s.dir then .mrRx else .mtReady
      sr1 := { s.sr1 with addr := false }, arm := { s.arm with addr := false } } := by
  rw [sr2Read, if_pos ⟨harm, hflag⟩]
  cases s.dir <;> rfl

/-- The end of an address phase for a write and for a read, once ADDR is seen. -/
theorem lineTakes_readSr2 (harm : s.arm.addr = true) (hflag : s.sr1.addr = true) :
    LineTakes (.access (.read .sr2)) s { s with
      rxWindowOpen := s.dir, phase := if s.dir then .mrRx else .mtReady
      sr1 := { s.sr1 with addr := false }, arm := { s.arm with addr := false } } :=
  fun d sc => ⟨d + 1, lineEffect_access (a := .read .sr2)
    (congrArg some (sr2Read_of_armed (s := rescheduled d sc s) harm hflag))⟩

theorem lineTakes_readTmp (hflag : s.sr1.rxne = true) :
    LineTakes .readTmp s { s with rxWindowOpen := false, sr1 := { s.sr1 with rxne := false }, tmp := s.dr } :=
  fun d _ => ⟨d, (lineEffect_readTmp _).1 hflag⟩

/-- A poll that is over: the latches hold the flags, after the poll of STOP where they did before. -/
theorem lineTakes_poll {c : Cond} (hmet : condMet c s = true) (hstop : c = .stopSent → s.arm = armedBy s.sr1) :
    LineTakes (.poll c) s { s with rxWindowOpen := false, arm := armedBy s.sr1 } := fun d sc => by
  by_cases hc : c = .stopSent
  · refine ⟨d, ?_⟩
    rw [← hstop hc]
    subst hc
    exact lineEffect_pollStop hmet
  · exact ⟨d + 1, lineEffect_poll hc hmet⟩

end

/-! ### Controller steps -/

section
variable {i : Instr} {acts : List Action} {s : State} (h : Composing i acts s)
include h

theorem stepTakes_genStart (hp : s.phase = .idle) (hstart : s.cr.start = true) :
    StepTakes .genStart s { s with
      cr := { s.cr with start := false }, sr1 := { s.sr1 with sb := true, btf := false }, arm := disarmed, phase := .msSb
      ref := refOnStart s.ref, trace := s.trace ++ [.start] } := by
  refine ⟨enabled_genStart_iff.mpr ⟨hp, hstart, h.pe, h.notStuck, h.fault⟩, fun d sc => ?_⟩
  rw [runStep, genStart, deviceStart, onReference_of_reference]
  · rfl
  · exact h.device

/-- The device is present, so it acknowledges its own address and is selected. -/
theorem stepTakes_addrTx {a : Byte} (hp : s.phase = .msAddrTx a) (ha : a.extractLsb' 1 7 = s.cfg.devAddr7) :
    StepTakes .addrTx s { s with
      sr1 := { s.sr1 with addr := true }, dir := isRead a, phase := .msAddrAcked
      ref := { s.ref with sel := true }, trace := s.trace ++ [.address a true] } := by
  refine ⟨enabled_addrTx_iff.mpr ⟨⟨a, hp⟩, h.notStuck, h.fault⟩, fun d sc => ?_⟩
  have hd : (rescheduled d sc s).device = .reference := h.device
  have hack : refAckAddr s.cfg.devAddr7 a s.ref = true := refAckAddr_iff.mpr ⟨h.present, ha⟩
  have hanswer : ackAddr a (rescheduled d sc s) = true := (ackAddr_of_reference hd a).trans hack
  rw [runStep_addrTx (s := rescheduled d sc s) hp, addrTx, if_pos hanswer, deviceAddressed, onReference_of_reference hd, hanswer]
  show rescheduled d sc { s with
    sr1 := { s.sr1 with addr := true }, dir := isRead a, phase := .msAddrAcked
    ref := refAfterAddr s.cfg.devAddr7 a s.ref, trace := s.trace ++ [.address a true] } = _
  rw [refAfterAddr, hack]

/-- The device is selected, so it acknowledges the byte. -/
theorem stepTakes_byteTx {b : Byte} (hp : s.phase = .mtTx b) (hsel : s.ref.sel = true) :
    StepTakes .byteTx s { s with
      sr1 := { s.sr1 with btf := true }, phase := .mtBtf
      ref := refAfterData b s.ref, trace := s.trace ++ [.data b true] } := by
  refine ⟨enabled_byteTx_iff.mpr ⟨⟨b, hp⟩, h.notStuck, h.fault⟩, fun d sc => ?_⟩
  have hd : (rescheduled d sc s).device = .reference := h.device
  have hanswer : ackData b (rescheduled d sc s) = true := (ackData_of_reference hd b).trans hsel
  rw [runStep_byteTx (s := rescheduled d sc s) hp, byteTx, if_pos hanswer, deviceSent, onReference_of_reference hd, hanswer]
  rfl

theorem stepTakes_rxByte (hp : s.phase = .mrRx) (hrxne : s.sr1.rxne = false) (hwindow : s.rxWindowOpen = false)
    (hack : s.cr.ack = false) :
    StepTakes .rxByte s { s with
      dr := refReadByte s.ref, sr1 := { s.sr1 with rxne := true }, phase := .mrDone
      ref := refAfterRead s.ref, trace := s.trace ++ [.read (refReadByte s.ref)] } := by
  refine ⟨enabled_rxByte_iff.mpr ⟨hp, hrxne, h.notStuck, h.fault, .inr hwindow⟩, fun d sc => ?_⟩
  have hd : (rescheduled d sc s).device = .reference := h.device
  have hoff : ¬(rescheduled d sc s).cr.ack = true := Bool.eq_false_iff.mp hack
  rw [runStep, rxByte, if_neg hoff, deviceRead, onReference_of_reference hd, readByte_of_reference hd]
  rfl

theorem stepTakes_genStop (hp : s.phase = .mtBtf ∨ s.phase = .mrDone) (hstop : s.cr.stop = true) :
    StepTakes .genStop s { s with
      cr := { s.cr with stop := false }, sr1 := { s.sr1 with btf := false }, arm := { s.arm with btf := false }, dir := false
      phase := .idle, ref := refOnStop s.ref, trace := s.trace ++ [.stop] } := by
  refine ⟨enabled_genStop_iff.mpr ⟨hstop, hp, h.notStuck, h.fault⟩, fun d sc => ?_⟩
  rw [runStep, genStop, deviceStop, onReference_of_reference]
  · rfl
  · exact h.device

end

end Sys2Proof.Machine
end

section
/-! The five primitives inside a composer, against the reference device that acknowledges: each leads from one resting place of the controller to the
next, under every schedule (R152–R158, R170, R175). -/

namespace Sys2Proof.Machine

/-! ### Where the controller rests between two primitives (R150, R157, R158) -/

/-- The phase a transaction rests in at a grammar state of its primitives (R40, R44). -/
def restPhase : Txn → Phase
  | .idle => .idle
  | .started => .msSb
  | .addrW => .mtReady
  | .addrR => .mrRx
  | .wrote => .mtBtf
  | .read => .mrDone

/-- The flags that stand there: SB and BTF wait for the next write of DR (R30, R32). -/
def restFlags : Txn → StatusFlags
  | .started => { noFlags with sb := true }
  | .wrote => { noFlags with btf := true }
  | .idle | .addrW | .addrR | .read => noFlags

/-- `s` with the controller where a transaction that the device has acknowledged throughout leaves it, at the grammar state `x` of its primitives:
the flag of the last poll is set and armed, nothing is requested, and the window is open where the next byte is to be received. -/
def atRest (x : Txn) (s : State) : State :=
  { s with
    cr := { s.cr with start := false, stop := false }
    sr1 := restFlags x
    arm := armedBy (restFlags x)
    phase := restPhase x
    dir := x == .addrR || x == .read
    rxWindowOpen := x == .addrR }

/-- `s` with the controller holding the device's answer to an address byte, seen by the poll and not yet cleared. -/
def answered (rd : Bool) (s : State) : State :=
  { s with
    cr := { s.cr with start := false, stop := false }
    sr1 := { noFlags with addr := true }
    arm := { disarmed with addr := true }
    phase := .msAddrAcked
    dir := rd
    rxWindowOpen := false }

/-- Between two transactions the controller is at rest (R222). -/
theorem atRest_of_busIdle {s : State} (h : busIdle s = true) : atRest .idle s = s := by
  simp only [busIdle, noRequest, Bool.and_eq_true, Bool.not_eq_true', decide_eq_true_eq] at h
  obtain ⟨⟨hp, hf, hl, hd, hw⟩, hstart, hstop⟩ := h
  obtain ⟨_, _, _, _, _, _, _, _, _, ⟨_, _, _, _, _⟩, _⟩ := s
  simp_all [atRest, restPhase, restFlags, armedBy, disarmed, noFlags]

theorem busIdle_atRest (s : State) : busIdle (atRest .idle s) = true := by
  simp [busIdle, noRequest, atRest, restFlags, restPhase, armedBy, disarmed, noFlags]

/-- At rest the controller waits for the host. -/
theorem controllerEnabled_atRest {x : Txn} {s : State} (h : s.cfg.rxAckWindow = .hostFirst) :
    controllerEnabled (atRest x s) = false := by
  refine controllerEnabled_of_noRequest rfl ?_ ?_ fun hp => ⟨h, ?_⟩
  · cases x <;> rfl
  · cases x <;> rfl
  · cases x <;> cases hp
    rfl

section
variable {i : Instr} {rest : List Action} {s : State}

/-- BEGIN inside a composer (R152). -/
theorem Composing.begin (h : Composing i (beginActions ++ rest) (atRest .idle s)) (hrest : rest ≠ []) :
    let t := atRest .started { s with
      mpc := s.mpc + 2, cls := some .txn, ref := refOnStart s.ref, trace := s.trace ++ [.start] }
    Composing i rest t ∧ Arrives (atRest .idle s) t := by
  obtain ⟨h1, a1⟩ := h.line (List.cons_ne_nil _ _) (controllerEnabled_atRest h.hostFirst) (lineTakes_setStart rfl rfl)
  obtain ⟨h2, a2⟩ := h1.wait rfl rfl rfl rfl (stepTakes_genStart h1 rfl rfl) h.fault
  obtain ⟨h3, a3⟩ := h2.line hrest (controllerEnabled_of_noRequest rfl rfl rfl nofun) (lineTakes_poll rfl nofun)
  exact ⟨h3, a1.trans (a2.trans a3)⟩

/-- ADDRESS inside a composer up to its two status reads: the device has answered to its own address (R153). -/
theorem Composing.sendAddress {a : Byte} (h : Composing i (addressActions a ++ rest) (atRest .started s))
    (ha : a.extractLsb' 1 7 = s.cfg.devAddr7) :
    let t := answered (isRead a) { s with
      mpc := s.mpc + 2, cls := some .txn, dr := a, ref := { s.ref with sel := true }, trace := s.trace ++ [.address a true] }
    Composing i (.access (.read .sr1) :: .access (.read .sr2) :: rest) t ∧ Arrives (atRest .started s) t := by
  obtain ⟨h1, a1⟩ := h.line (List.cons_ne_nil _ _) (controllerEnabled_atRest h.hostFirst) (lineTakes_wrDr_of_msSb rfl rfl rfl)
  obtain ⟨h2, a2⟩ := h1.wait rfl rfl rfl rfl (stepTakes_addrTx h1 rfl ha) h.fault
  obtain ⟨h3, a3⟩ := h2.line (List.cons_ne_nil _ _) (controllerEnabled_of_noRequest rfl rfl rfl nofun) (lineTakes_poll rfl nofun)
  exact ⟨h3, a1.trans (a2.trans a3)⟩

/-- The two status reads end the address phase (R153). -/
theorem Composing.readStatus {rd : Bool} (h : Composing i (.access (.read .sr1) :: .access (.read .sr2) :: rest) (answered rd s))
    (hrest : rest ≠ []) :
    let t := atRest (if rd then .addrR else .addrW) { s with mpc := s.mpc + 2, cls := some .txn }
    Composing i rest t ∧ Arrives (answered rd s) t := by
  obtain ⟨h1, a1⟩ := h.line (List.cons_ne_nil _ _) (controllerEnabled_of_noRequest rfl rfl rfl nofun) lineTakes_readSr1
  obtain ⟨h2, a2⟩ := h1.line hrest (controllerEnabled_of_noRequest rfl rfl rfl nofun) (lineTakes_readSr2 rfl rfl)
  cases rd <;> exact ⟨h2, a1.trans a2⟩

/-- ADDRESS inside a composer (R153). -/
theorem Composing.address {a : Byte} (h : Composing i (addressActions a ++ rest) (atRest .started s)) (hrest : rest ≠ [])
    (ha : a.extractLsb' 1 7 = s.cfg.devAddr7) :
    let t := atRest (if isRead a then .addrR else .addrW) { s with
      mpc := s.mpc + 4, cls := some .txn, dr := a, ref := { s.ref with sel := true }, trace := s.trace ++ [.address a true] }
    Composing i rest t ∧ Arrives (atRest .started s) t := by
  obtain ⟨h1, a1⟩ := h.sendAddress ha
  obtain ⟨h2, a2⟩ := h1.readStatus hrest
  exact ⟨h2, a1.trans a2⟩

/-- WRITE_BYTE inside a composer, to a device that is selected (R154). -/
theorem Composing.writeByte {x : Txn} {b : Byte} (h : Composing i (writeByteActions b ++ rest) (atRest x s)) (hrest : rest ≠ [])
    (hx : legalIn .writeByte x = true) (hsel : s.ref.sel = true) :
    let t := atRest .wrote { s with
      mpc := s.mpc + 2, cls := some .txn, dr := b, ref := refAfterData b s.ref, trace := s.trace ++ [.data b true] }
    Composing i rest t ∧ Arrives (atRest x s) t := by
  have hline : LineTakes (.access (.wrDr b)) (atRest x s) { atRest .addrW s with dr := b, phase := .mtTx b } := by
    obtain rfl | rfl : x = .addrW ∨ x = .wrote := by simpa [legalIn] using hx
    · exact lineTakes_wrDr_of_mtReady rfl
    · exact lineTakes_wrDr_of_mtBtf rfl rfl rfl
  obtain ⟨h1, a1⟩ := h.line (List.cons_ne_nil _ _) (controllerEnabled_atRest h.hostFirst) hline
  obtain ⟨h2, a2⟩ := h1.wait rfl rfl rfl rfl (stepTakes_byteTx h1 rfl hsel) h.fault
  obtain ⟨h3, a3⟩ := h2.line hrest (controllerEnabled_of_noRequest rfl rfl rfl nofun) (lineTakes_poll rfl nofun)
  exact ⟨h3, a1.trans (a2.trans a3)⟩

/-- READ_BYTE inside a composer: the register at the pointer comes into `tmp` and DR, and the pointer advances (R145, R155). -/
theorem Composing.readByte (h : Composing i (readByteActions ++ rest) (atRest .addrR s)) (hrest : rest ≠ []) :
    let v := refReadByte s.ref
    let t := atRest .read { s with
      mpc := s.mpc + 4, cls := some .txn, tmp := v, dr := v, cr := { s.cr with ack := true }
      ref := refAfterRead s.ref, trace := s.trace ++ [.read v] }
    Composing i rest t ∧ Arrives (atRest .addrR s) t := by
  obtain ⟨h1, a1⟩ := h.line (List.cons_ne_nil _ _) (controllerEnabled_atRest h.hostFirst) lineTakes_clrAck
  obtain ⟨h2, a2⟩ := h1.wait rfl rfl rfl rfl (stepTakes_rxByte h1 rfl rfl rfl rfl) h.fault
  obtain ⟨h3, a3⟩ := h2.line (List.cons_ne_nil _ _) (controllerEnabled_of_noRequest rfl rfl rfl nofun) (lineTakes_poll rfl nofun)
  obtain ⟨h4, a4⟩ := h3.line (List.cons_ne_nil _ _) (controllerEnabled_of_noRequest rfl rfl rfl nofun) (lineTakes_readTmp rfl)
  obtain ⟨h5, a5⟩ := h4.line hrest (controllerEnabled_of_noRequest rfl rfl rfl nofun) lineTakes_setAck
  exact ⟨h5, a1.trans (a2.trans (a3.trans (a4.trans a5)))⟩

/-- END inside a composer up to its poll: the stop is sent and the bus is free, but the host has not seen it yet (R156). -/
theorem Composing.stop {x : Txn} (h : Composing i (endActions ++ rest) (atRest x s)) (hx : legalIn .endTxn x = true) :
    let t := atRest .idle { s with
      mpc := s.mpc + 1, cls := some .txn, ref := refOnStop s.ref, trace := s.trace ++ [.stop] }
    Composing i (.poll .stopSent :: rest) t ∧ Arrives (atRest x s) t := by
  obtain rfl | rfl : x = .wrote ∨ x = .read := by simpa [legalIn] using hx
  all_goals
    obtain ⟨h1, a1⟩ := h.line (List.cons_ne_nil _ _) (controllerEnabled_atRest h.hostFirst)
      (lineTakes_setStop (by simp [atRest, restPhase]) rfl)
    obtain ⟨h2, a2⟩ := h1.wait rfl rfl rfl rfl (stepTakes_genStop h1 (by simp [atRest, restPhase]) rfl) h.fault
    exact ⟨h2, a1.trans a2⟩

/-- The poll of STOP on the free bus. -/
theorem lineTakes_pollStop : LineTakes (.poll .stopSent) (atRest .idle s) (atRest .idle s) := lineTakes_poll rfl fun _ => rfl

/-- END inside a composer, with more to come (R156). -/
theorem Composing.endTxn {x : Txn} (h : Composing i (endActions ++ rest) (atRest x s)) (hrest : rest ≠ [])
    (hx : legalIn .endTxn x = true) :
    let t := atRest .idle { s with
      mpc := s.mpc + 2, cls := some .txn, ref := refOnStop s.ref, trace := s.trace ++ [.stop] }
    Composing i rest t ∧ Arrives (atRest x s) t := by
  obtain ⟨h1, a1⟩ := h.stop hx
  obtain ⟨h2, a2⟩ := h1.line hrest (controllerEnabled_atRest h.hostFirst) lineTakes_pollStop
  exact ⟨h2, a1.trans a2⟩

/-- END as the last primitive of a composer, which completes (R156, R170). -/
theorem Composing.complete {x : Txn} (h : Composing i endActions (atRest x s)) (hx : legalIn .endTxn x = true) :
    let t := atRest .idle { s with
      mpc := s.mpc + 1, cls := some .txn, ref := refOnStop s.ref, trace := s.trace ++ [.stop] }
    Arrives (atRest x s) { completionOf i t with cc := s.cc + 1, mpc := 0 } := by
  obtain ⟨h1, a1⟩ := h.stop (rest := []) hx
  exact a1.trans (h1.last (controllerEnabled_atRest h.hostFirst) lineTakes_pollStop)

end

end Sys2Proof.Machine
end

section
/-! The composers against the reference device, from a free bus to a free bus, under every schedule (R171–R174). -/

namespace Sys2Proof.Machine

/-- A composer that is ready to start has all its lines before it, from the controller at rest. -/
theorem composing_of_ready {s : State} {i : Instr} (h : readyForComposer s = true) (hfetch : fetch s = some (encode i))
    (hi : i.op.cls = .txn) (hlegal : legalIn i.op .idle = true) :
    Composing i (actionsOf s.cfg i) (atRest .idle s) ∧ atRest .idle s = s ∧ s.fault = none ∧ s.cr.pe = true := by
  simp only [readyForComposer, Bool.and_eq_true, Bool.not_eq_true', beq_iff_eq, bne_iff_ne] at h
  obtain ⟨⟨⟨⟨⟨⟨⟨⟨⟨⟨hr, hstuck⟩, hb⟩, hfirst⟩, hpe⟩, hdevice⟩, hpresent⟩, hidle⟩, hmpc⟩, htxn⟩, hcls⟩ := h
  have hrest := atRest_of_busIdle hidle
  refine ⟨hrest.symm ▸ ?_, hrest, fault_eq_none_of_running hr, hpe⟩
  exact {
    isTxn := hi
    lines := by rw [hmpc, List.drop_zero]
    command := currentCommand_eq_some_iff.mpr ⟨_, hfetch, decode_encode i⟩
    legal := htxn ▸ hlegal
    started := by
      rcases hc : s.cls with _ | _ | _
      · exact .inr ⟨rfl, hmpc⟩
      · exact absurd hc hcls
      · exact .inl rfl
    running := hr
    binding := hb
    notStuck := hstuck
    hostFirst := hfirst
    pe := hpe
    device := hdevice
    present := hpresent }

/-- A run that comes to a state under every schedule reaches it, up to draws and schedule, under the state's own. -/
theorem Arrives.exists_reaches {s t : State} (h : Arrives s t) : ∃ d sc, reaches s (rescheduled d sc t) := h s.draws s.sched

section
variable {i : Instr} {rest : List Action} {s : State}

/-- A write transaction up to its first data byte, which sets the device's pointer (R144, R173). -/
theorem Composing.setPointer {a sub : Byte}
    (h : Composing i (beginActions ++ (addressActions a ++ (writeByteActions sub ++ rest))) (atRest .idle s))
    (hrest : rest ≠ []) (ha : a.extractLsb' 1 7 = s.cfg.devAddr7) (hrd : isRead a = false) :
    let t := atRest .wrote { s with
      mpc := s.mpc + 8, cls := some .txn, dr := sub, ref := { s.ref with ptr := sub, idx := 1, sel := true }
      trace := s.trace ++ [.start, .address a true, .data sub true] }
    Composing i rest t ∧ Arrives (atRest .idle s) t := by
  obtain ⟨h1, a1⟩ := h.begin (List.cons_ne_nil _ _)
  obtain ⟨h2, a2⟩ := h1.address (List.cons_ne_nil _ _) ha
  rw [hrd] at h2 a2
  obtain ⟨h3, a3⟩ := h2.writeByte hrest rfl rfl
  have arrives := a1.trans (a2.trans a3)
  simp only [List.append_assoc, List.cons_append, List.nil_append] at h3 arrives
  exact ⟨h3, arrives⟩

/-- A read transaction up to its byte, the register at the device's pointer (R145, R173). -/
theorem Composing.takeByte {a : Byte}
    (h : Composing i (beginActions ++ (addressActions a ++ (readByteActions ++ rest))) (atRest .idle s))
    (hrest : rest ≠ []) (ha : a.extractLsb' 1 7 = s.cfg.devAddr7) (hrd : isRead a = true) :
    let v := refReadByte s.ref
    let t := atRest .read { s with
      mpc := s.mpc + 10, cls := some .txn, tmp := v, dr := v, cr := { s.cr with ack := true }
      ref := { s.ref with ptr := s.ref.ptr + 1, idx := 0, sel := true }
      trace := s.trace ++ [.start, .address a true, .read v] }
    Composing i rest t ∧ Arrives (atRest .idle s) t := by
  obtain ⟨h1, a1⟩ := h.begin (List.cons_ne_nil _ _)
  obtain ⟨h2, a2⟩ := h1.address (List.cons_ne_nil _ _) ha
  rw [hrd] at h2 a2
  obtain ⟨h3, a3⟩ := h2.readByte hrest
  have arrives := a1.trans (a2.trans a3)
  simp only [List.append_assoc, List.cons_append, List.nil_append] at h3 arrives
  exact ⟨h3, arrives⟩

end

/-- READ_REG is a transaction that sets the pointer and one that takes a byte. -/
theorem readReg_lines (c : Config) (sub : Byte) :
    actionsOf c (.readReg sub) =
      beginActions ++ (addressActions (addrW c) ++ (writeByteActions sub ++ (endActions ++
        (beginActions ++ (addressActions (addrR c) ++ (readByteActions ++ endActions)))))) := by
  rw [(composersAreTheirPrimitives c sub 0).1]
  rfl

/-- WRITE_REG is one transaction that sets the pointer and sends a byte. -/
theorem writeReg_lines (c : Config) (sub value : Byte) :
    actionsOf c (.writeReg sub value) =
      beginActions ++ (addressActions (addrW c) ++ (writeByteActions sub ++ (writeByteActions value ++ endActions))) := by
  rw [(composersAreTheirPrimitives c sub value).2]
  rfl

/-- Settles O45: the write transaction sets the pointer to `sub`, and the read transaction takes the register there. -/
theorem readRegReturnsTheRegister : Obligations.ReadRegReturnsTheRegister := by
  intro s sub hready hfetch v
  obtain ⟨h0, hs, hfault, hpe⟩ := composing_of_ready hready hfetch rfl rfl
  rw [readReg_lines] at h0
  obtain ⟨haddrW, haddrR, -⟩ := addressBytesCarryDevAddr7 s.cfg
  obtain ⟨hwrite, hread⟩ := isRead_addr s.cfg
  obtain ⟨h1, a1⟩ := h0.setPointer (List.cons_ne_nil _ _) haddrW hwrite
  obtain ⟨h2, a2⟩ := h1.endTxn (List.cons_ne_nil _ _) rfl
  obtain ⟨h3, a3⟩ := h2.takeByte (List.cons_ne_nil _ _) haddrR hread
  obtain ⟨d, sc, hrun⟩ := (a1.trans (a2.trans (a3.trans (h3.complete rfl)))).exists_reaches
  rw [hs] at hrun
  refine ⟨_, hrun, rfl, rfl, rfl, hfault, rfl, rfl, busIdle_atRest _, rfl, hpe, rfl, rfl, rfl, rfl, rfl, ?_⟩
  simp [rescheduled, completionOf, atRest, refReadByte, refOnStop, v]

/-- Settles O46: the transaction sets the pointer to `sub` and writes the next byte through it. -/
theorem writeRegWritesTheRegister : Obligations.WriteRegWritesTheRegister := by
  intro s sub value hready hfetch
  obtain ⟨h0, hs, hfault, hpe⟩ := composing_of_ready hready hfetch rfl rfl
  rw [writeReg_lines] at h0
  obtain ⟨haddrW, -⟩ := addressBytesCarryDevAddr7 s.cfg
  obtain ⟨hwrite, -⟩ := isRead_addr s.cfg
  obtain ⟨h1, a1⟩ := h0.setPointer (List.cons_ne_nil _ _) haddrW hwrite
  obtain ⟨h2, a2⟩ := h1.writeByte (List.cons_ne_nil _ _) rfl rfl
  obtain ⟨d, sc, hrun⟩ := (a1.trans (a2.trans (h2.complete rfl))).exists_reaches
  rw [hs] at hrun
  refine ⟨_, hrun, rfl, rfl, rfl, hfault, rfl, rfl, busIdle_atRest _, rfl, hpe, rfl, rfl, rfl, rfl, rfl, ?_⟩
  simp [rescheduled, completionOf, atRest]

end Sys2Proof.Machine
end

section
/-! The byte assembly of an axis: the two bytes' word as a sum, and that word read as a signed number (R182). -/

namespace Sys2Proof.Machine

@[simp] theorem toNat_zext16 (v : Byte) : (zext16 v).toNat = v.toNat :=
  BitVec.toNat_setWidth_of_le (by decide)

/-- The two bytes do not overlap in the word, so their OR is their sum. -/
theorem toNat_axisWord (lo hi : Byte) : (zext16 lo ||| (zext16 hi <<< 8)).toNat = lo.toNat + 256 * hi.toNat := by
  have hshift : (zext16 hi <<< 8).toNat = hi.toNat <<< 8 := by
    rw [BitVec.toNat_shiftLeft, toNat_zext16, Nat.shiftLeft_eq]
    omega
  rw [BitVec.toNat_or, toNat_zext16, hshift, Nat.or_comm, ← Nat.shiftLeft_add_eq_or_of_lt lo.isLt, Nat.shiftLeft_eq]
  omega

/-- The word's sign bit is the high byte's, so `hi` alone says whether 65536 is taken off. -/
theorem rawAxis_eq_signed_sum (lo hi : Byte) :
    rawAxis lo hi =
      if hi.toNat < 128 then (lo.toNat : Int) + 256 * hi.toNat else (lo.toNat : Int) + 256 * hi.toNat - 65536 := by
  rw [rawAxis, BitVec.toInt_eq_toNat_cond, toNat_axisWord]
  by_cases hsign : hi.toNat < 128
  · rw [if_pos (by omega), if_pos hsign]
    push_cast
    rfl
  · rw [if_neg (by omega), if_neg hsign]
    push_cast
    rfl

/-- Settles O60: the value is the signed sum of `rawAxis_eq_signed_sum`, and its range is that of every signed 16-bit word. -/
theorem axisBytesAreSignedLittleEndian : Obligations.AxisBytesAreSignedLittleEndian := by
  refine ⟨fun lo hi => ⟨rawAxis_eq_signed_sum lo hi, BitVec.le_toInt _, BitVec.toInt_le⟩, ?_⟩
  rw [rawAxis_eq_signed_sum]
  rfl

end Sys2Proof.Machine
end

section
/-! Model faults: every action that records one is precise, at a command's start in the order of R202, and a launch under `HARDENED` is refused
(R200–R202, R206). -/

namespace Sys2Proof.Machine

/-! ### HARDENED (R206) -/

theorem whenRunning_of_hardened {s : State} (hf : s.fault = none) (hh : s.cfg.hardened = true) (k : Host.Outcome State Fault Refusal) :
    whenRunning s k = .refused .hardenedVariant := by
  simp only [whenRunning, hf, if_pos hh]

/-- Settles O13: the step and every command, raw or Txn, go through `whenRunning`. -/
theorem hardenedLaunchIsRefused : Obligations.HardenedLaunchIsRefused := by
  refine fun s hf hh => ⟨whenRunning_of_hardened hf hh _, fun i => ?_⟩
  rcases exec_eq_rawCommand_or_txnCommand i s with ⟨a, heq⟩ | ⟨-, heq⟩
  all_goals
    rw [heq]
    exact whenRunning_of_hardened hf hh _

/-! ### What a command's action records (R200, R201) -/

theorem accessEffect_eq_none_iff {a : Access} {s : State} : accessEffect a s = none ↔ admitted a s = false := by
  simp [accessEffect_eq]

/-- An access records `UnmodelledAccess` where it has no effect; elsewhere the fault is left to what comes after it. -/
theorem access_fault {a : Access} {s : State} {k : State → State} (hk : ∀ u, (k u).fault = u.fault) :
    (accessEffect a s = none ∧ access a s k = raiseFault (.unmodelledAccess a s.phase) s) ∨
    (accessEffect a s ≠ none ∧ (access a s k).fault = s.fault) := by
  obtain ⟨-, -, -, -, -, -, hfault, -⟩ := afterAccess_frame a s
  cases ha : admitted a s with
  | false => exact .inl ⟨accessEffect_eq_none_iff.mpr ha, access_of_not_admitted ha k⟩
  | true =>
    refine .inr ⟨by simp [accessEffect_eq_none_iff, ha], ?_⟩
    rw [access, if_pos ha, hk, hfault]

/-- An action is its access and then only the command interface, which records no fault (R120, R151). -/
theorem performAction_eq_access (act : Action) (last : Bool) (i : Instr) (s : State) :
    ∃ k, (∀ u, (k u).fault = u.fault) ∧ performAction act last (completionOf i) s = access act.accessOf s k := by
  refine ⟨_, fun u => ?_, rfl⟩
  cases act.over s with
  | false => rfl
  | true => cases last <;> simp [advance, completionOf_fault]

/-- All a command's action can do when it answers a next state, as far as faults go: one of the checks at its start, or its one access. -/
theorem exec_next {i : Instr} {s t : State} (h : exec i s = .next t) :
    running s = true ∧
      ((s.mpc = 0 ∧ ∃ r, t = raiseFault r s) ∨ ∃ a k, (∀ u, (k u).fault = u.fault) ∧ t = access a s k) := by
  rcases exec_eq_rawCommand_or_txnCommand i s with ⟨a, heq⟩ | ⟨-, heq⟩
  · obtain ⟨hr, h0, ⟨-, ha, rfl⟩ | ⟨-, -, rfl⟩ | ⟨-, rfl⟩⟩ := rawCommand_next (heq ▸ h)
    · exact ⟨hr, .inr ⟨a, completeRaw (loggedBy a s), fun _ => rfl, by rw [access, if_pos ha]⟩⟩
    · exact ⟨hr, .inl ⟨h0, _, rfl⟩⟩
    · exact ⟨hr, .inl ⟨h0, _, rfl⟩⟩
  · obtain ⟨hr, ⟨h0, -, rfl⟩ | ⟨h0, -, -, rfl⟩ | ⟨-, act, -, rfl⟩⟩ := txnCommand_next (heq ▸ h)
    · exact ⟨hr, .inl ⟨h0, _, rfl⟩⟩
    · exact ⟨hr, .inl ⟨h0, _, rfl⟩⟩
    · obtain ⟨k, hk, heq⟩ := performAction_eq_access act (s.mpc + 1 == (actionsOf s.cfg i).length) i s
      exact ⟨hr, .inr ⟨_, k, hk, heq⟩⟩

/-- A command's action records no fault or does nothing else; after the first action the fault is `UnmodelledAccess`. -/
theorem exec_next_fault {i : Instr} {s t : State} (h : exec i s = .next t) :
    t.fault = none ∨ ∃ r, t = raiseFault r s ∧ (s.mpc ≠ 0 → ∃ a, accessEffect a s = none ∧ r = .unmodelledAccess a s.phase) := by
  obtain ⟨hr, ⟨h0, r, rfl⟩ | ⟨a, k, hk, rfl⟩⟩ := exec_next h
  · exact .inr ⟨r, rfl, fun hne => absurd h0 hne⟩
  · rcases access_fault (a := a) (s := s) hk with ⟨hnone, heq⟩ | ⟨-, hf⟩
    · exact .inr ⟨_, heq, fun _ => ⟨a, hnone, rfl⟩⟩
    · exact .inl (hf.trans (fault_eq_none_of_running hr))

/-! ### Precision (R200) -/

/-- From `s` to `t` no fault is recorded, or one is and nothing else is done (R200). -/
abbrev Precise (s t : State) : Prop := t.fault = none ∨ ∃ r, t = raiseFault r s

/-- The record holds the place of the state before, and is all that changed. -/
theorem Precise.eq_of_fault {s t : State} {f : FaultRecord} (h : Precise s t) (hf : t.fault = some f) :
    f.cc = s.cc ∧ f.mpc = s.mpc ∧ t = { s with fault := some f } := by
  rcases h with hnone | ⟨r, rfl⟩
  · simp [hnone] at hf
  · cases hf
    exact ⟨rfl, rfl, rfl⟩

theorem exec_precise {i : Instr} {s t : State} (h : exec i s = .next t) : Precise s t :=
  (exec_next_fault h).imp_right fun ⟨r, heq, _⟩ => ⟨r, heq⟩

/-- An enabled controller step records no fault, or `RxByteAcked` and does nothing else (R133, R200). -/
theorem runStep_next_fault {c : ControllerStep} {s : State} (h : enabled c s = true) :
    (runStep c s).fault = none ∨ ∃ b, runStep c s = raiseFault (.rxByteAcked b) s := by
  rcases runStep_acked_or_effect h with ⟨-, -, hb⟩ | ⟨hnone, -⟩
  · exact .inr hb
  · exact .inl hnone

theorem runStep_precise {c : ControllerStep} {s : State} (h : enabled c s = true) : Precise s (runStep c s) :=
  (runStep_next_fault h).imp_right fun ⟨b, heq⟩ => ⟨.rxByteAcked b, heq⟩

theorem hostAction_precise {s t : State} (h : hostAction s = .next t) : Precise s t := by
  rcases hostAction_next h with ⟨-, i, -, -, hx⟩ | ⟨w, -, -, -, -, heq⟩ | ⟨-, -, heq⟩
  · exact exec_precise hx
  · exact .inr ⟨_, heq⟩
  · exact .inr ⟨_, heq⟩

/-- A step is precise but for the schedule, which advances. -/
theorem step_precise {s t : State} (h : step s = .next t) : Precise (popSched s) t := by
  rcases step_next_agent h with hh | ⟨c, hc, rfl⟩
  · exact hostAction_precise hh
  · exact runStep_precise hc

/-- Settles O12: commands, controller steps and steps are precise, and a recorded fault stops the machine in `whenRunning`. -/
theorem faultsArePreciseAndTerminal : Obligations.FaultsArePreciseAndTerminal :=
  ⟨fun _ _ _ _ h => (exec_precise h).eq_of_fault, fun _ _ _ h => (runStep_precise h).eq_of_fault,
    fun _ _ _ h => (step_precise h).eq_of_fault, fun _ _ h => ⟨whenRunning_of_fault h _, by simp [isFinal, h]⟩⟩

/-! ### The checks at a command's start (R202) -/

theorem classAdmits_iff {c : CmdClass} {s : State} : classAdmits c s = true ↔ s.cls = none ∨ s.cls = some c := by
  simp [classAdmits]

theorem legalIn_of_raw {o : Op} (h : o.cls = .raw) (x : Txn) : legalIn o x = true := by
  cases o with
  | rdCr | setStart | setStop | setAck | clrAck | rdSr1 | rdSr2 | wrDr | rdDr => rfl
  | beginTxn | address | writeByte | readByte | endTxn | readReg | writeReg => cases h

/-- A command of the Raw class is one raw access (R111). -/
theorem exec_eq_rawCommand {i : Instr} (h : i.op.cls = .raw) (s : State) :
    ∃ a, actionsOf s.cfg i = [.access a] ∧ exec i s = rawCommand i.op a s := by
  cases i with
  | rdCr | setStart | setStop | setAck | clrAck | rdSr1 | rdSr2 | wrDr | rdDr => exact ⟨_, rfl, rfl⟩
  | beginTxn | address | writeByte | readByte | endTxn | readReg | writeReg => cases h

section
variable {i : Instr} {s : State} (hr : running s = true) (hmpc : s.mpc = 0)
include hr hmpc

/-- A command of the other class records `MixedCommandClass` before anything else (R24). -/
theorem exec_of_other_class (hcls : s.cls ≠ none ∧ s.cls ≠ some i.op.cls) :
    exec i s = .next (raiseFault (.mixedCommandClass i.op.code) s) := by
  have hadmits : ¬classAdmits i.op.cls s = true := by simpa [classAdmits_iff] using hcls
  cases hi : i.op.cls with
  | raw =>
    obtain ⟨a, -, heq⟩ := exec_eq_rawCommand hi s
    rw [heq, rawCommand, whenRunning_of_running hr, if_neg (not_not.mpr hmpc), if_neg (hi ▸ hadmits)]
  | txn =>
    rw [exec_eq_txnCommand hi, txnCommand, whenRunning_of_running hr,
      if_pos ⟨hmpc, Bool.eq_false_iff.mpr (hi ▸ hadmits)⟩]

section
variable (hcls : s.cls = none ∨ s.cls = some i.op.cls)
include hcls

/-- A command that is not legal is a Txn command, and records `SequenceViolation` (R150). -/
theorem exec_of_illegal (hlegal : legalIn i.op s.txn = false) :
    exec i s = .next (raiseFault (.sequenceViolation i.op.code s.txn) s) := by
  cases hi : i.op.cls with
  | raw => simp [legalIn_of_raw hi] at hlegal
  | txn => exact exec_of_not_legal hi hr hmpc (hi ▸ hcls) hlegal

/-- A command that passes the class check and the sequence check makes the access of its first action (R111, R151). -/
theorem exec_of_checks_passed {act : Action} (hlegal : legalIn i.op s.txn = true) (hact : (actionsOf s.cfg i)[0]? = some act) :
    ∃ k, (∀ u, (k u).fault = u.fault) ∧ exec i s = .next (access act.accessOf s k) := by
  cases hi : i.op.cls with
  | raw =>
    obtain ⟨a, hacts, heq⟩ := exec_eq_rawCommand hi s
    obtain rfl : Action.access a = act := by simpa [hacts] using hact
    exact ⟨completeRaw (loggedBy a s), fun _ => rfl, heq.trans (rawCommand_of_start hr hmpc (hi ▸ hcls) i.op a)⟩
  | txn =>
    obtain ⟨k, hk, heq⟩ := performAction_eq_access act (s.mpc + 1 == actionCount i) i s
    exact ⟨k, hk, (exec_of_action hr hi (fun _ => ⟨hi ▸ hcls, hlegal⟩) (hmpc ▸ hact)).trans (congrArg _ heq)⟩

end
end

/-- Settles O15: a start fails the decoder, the class check, the sequence check, or makes its first access (`exec_of_checks_passed`), which records
a fault exactly where it has no effect; later actions are `exec_next_fault`, controller steps `runStep_next_fault`. -/
theorem checksComeInOrder : Obligations.ChecksComeInOrder := by
  refine ⟨fun o x h => legalIn_of_raw h x, ?_, fun s t i f hmpc h hf => ?_, fun s c f h hf => ?_⟩
  · intro s w hr hm hw hmpc fails
    refine ⟨fun hd => (step_of_not_decode_ok hd hr hm hmpc hw).trans (by rw [hmpc]), fun i hd => ?_⟩
    have hstep : step s = exec i (popSched s) := stepRunsTheCommandAtCc s w i hr hm hw hd
    refine ⟨fun hcls => hstep.trans (exec_of_other_class hr hmpc hcls), fun hcls =>
      ⟨fun hlegal => hstep.trans (exec_of_illegal hr hmpc hcls hlegal), fun hlegal act hact => ?_⟩⟩
    obtain ⟨k, hk, hexec⟩ := exec_of_checks_passed (s := popSched s) hr hmpc hcls hlegal hact
    have heffect : accessEffect act.accessOf (popSched s) = none ↔ accessEffect act.accessOf s = none := by
      rw [accessEffect_eq_none_iff, accessEffect_eq_none_iff]
      rfl
    rw [Ne, ← heffect]
    rcases access_fault (a := act.accessOf) (s := popSched s) hk with ⟨hnone, heq⟩ | ⟨hsome, hf⟩
    · exact ⟨fun _ => (hstep.trans hexec).trans (congrArg _ heq), fun hsome => absurd hnone hsome⟩
    · exact ⟨fun hnone => absurd hnone hsome, fun _ => ⟨_, hstep.trans hexec, hf.trans (fault_eq_none_of_running hr)⟩⟩
  · rcases exec_next_fault h with hnone | ⟨r, rfl, hr⟩
    · simp [hnone] at hf
    · cases hf
      exact hr hmpc
  · rcases runStep_next_fault h with hnone | ⟨b, heq⟩
    · simp [hnone] at hf
    · rw [heq] at hf
      cases hf
      exact ⟨b, rfl⟩

end Sys2Proof.Machine
end

section
/-! The end of a run (R207). -/

namespace Sys2Proof.Machine

theorem mover_eq_none_iff {s : State} : mover s = none ↔ hostEnabled s = false ∧ controllerEnabled s = false := by
  unfold mover
  cases wanted s <;> cases hostEnabled s <;> cases controllerEnabled s <;> simp

/-- The host has no step at the end of the stream with no transaction open (R70, R207). -/
theorem hostEnabled_eq_false_iff {s : State} (hf : s.fault = none) :
    hostEnabled s = false ↔ s.cmds.length ≤ s.cc ∧ s.txn = .idle := by
  simp [hostEnabled, hf, fetch]

section
variable {s : State} (hr : running s = true)
include hr

/-- A command's meaning answers a next state or the stop `noSuchAction`, never the end of the run. -/
theorem exec_ne_runEnded (i : Instr) : exec i s ≠ .fault .runEnded := by
  rcases exec_eq_rawCommand_or_txnCommand i s with ⟨a, heq⟩ | ⟨-, heq⟩
  · rw [heq, rawCommand, whenRunning_of_running hr]
    split_ifs <;> nofun
  · rw [heq, txnCommand, whenRunning_of_running hr]
    split_ifs
    · nofun
    · nofun
    · split <;> nofun

theorem hostAction_ne_runEnded (hh : hostEnabled s = true) : hostAction s ≠ .fault .runEnded := by
  unfold hostAction
  split
  next w hw =>
    split
    · exact exec_ne_runEnded hr _
    · split_ifs <;> nofun
  next hw =>
    have htxn : s.txn ≠ .idle := by simpa [hostEnabled, hw, fault_eq_none_of_running hr] using hh
    rw [if_neg htxn]
    nofun

/-- The run ends exactly where neither agent has a step. -/
theorem step_eq_runEnded_iff : step s = .fault .runEnded ↔ mover s = none := by
  cases hm : mover s with
  | none => simp [step, whenRunning_of_running hr, hm]
  | some agent =>
    refine iff_of_false ?_ nofun
    cases agent with
    | host =>
      rw [step_of_mover_host hr hm]
      exact hostAction_ne_runEnded (s := popSched s) hr (mover_eq_host_iff.mp hm).1
    | controller =>
      obtain ⟨c, hc⟩ := controllerEnabled_iff.mp (mover_eq_controller_iff.mp hm).1
      rw [step_of_mover_controller hr hm, controllerAction_of_enabled (s := popSched s) hc]
      nofun

end

theorem hostAction_of_open_end {s : State} (hend : s.cmds.length ≤ s.cc) (htxn : s.txn ≠ .idle) :
    hostAction s = .next (raiseFault (.openTransactionAtEnd s.txn) s) := by
  have hfetch : fetch s = none := List.getElem?_eq_none hend
  simp only [hostAction, hfetch, if_neg htxn]

theorem exec_txn_of_raw {i : Instr} {s t : State} (hi : i.op.cls = .raw) (h : exec i s = .next t) : t.txn = s.txn := by
  obtain ⟨a, -, heq⟩ := exec_eq_rawCommand hi s
  obtain ⟨-, -, -, -, -, -, -, -, htxn, -⟩ := afterAccess_frame a s
  obtain ⟨-, -, ⟨-, -, rfl⟩ | ⟨-, -, rfl⟩ | ⟨-, rfl⟩⟩ := rawCommand_next (heq ▸ h)
  · exact htxn
  · rfl
  · rfl

/-- Settles O14: the run ends where neither agent has a step (`step_eq_runEnded_iff`); inside the stream the host has none exactly at its end
with no transaction open. -/
theorem runEndsExactlyWhenFinal : Obligations.RunEndsExactlyWhenFinal := by
  refine ⟨fun s hr hcc => ⟨?_, fun hend htxn hm => ?_⟩, fun _ _ _ hi h => exec_txn_of_raw hi h⟩
  · have hf := fault_eq_none_of_running hr
    have hend : s.cmds.length ≤ s.cc ↔ s.cc = s.cmds.length := ⟨hcc.antisymm, Eq.ge⟩
    rw [step_eq_runEnded_iff hr, mover_eq_none_iff, hostEnabled_eq_false_iff hf, controllerEnabled_eq_false_iff, hend]
    simp [hf, and_assoc]
  · rw [step_of_mover_host hr hm]
    exact hostAction_of_open_end (s := popSched s) hend.ge htxn

end Sys2Proof.Machine
end

section
/-! Polls that never end: while the controller has no step and the condition does not hold, a poll of SR1 repeats under every schedule
(R203–R205, R221). -/

namespace Sys2Proof.Machine

/-! ### Reads of SR1 alone -/

/-- `t` is `s` after some reads of SR1: window, latches, draws and schedule alone may differ (R106). -/
abbrev Polled (s t : State) : Prop :=
  t = { s with rxWindowOpen := t.rxWindowOpen, arm := t.arm, draws := t.draws, sched := t.sched }

theorem Polled.trans {s t u : State} (h : Polled s t) (k : Polled t u) : Polled s u := by
  rw [h] at k
  exact k

/-- The window alone is read by a controller step, RxByte in MR_RX (R133): elsewhere reads of SR1 enable none. -/
theorem Polled.enabled_eq {s t : State} (h : Polled s t) (hp : s.phase ≠ .mrRx) (c : ControllerStep) : enabled c t = enabled c s := by
  rw [h]
  cases c with
  | genStart | addrTx | byteTx | genStop => rfl
  | rxByte => simp [enabled, rxByteEnabled, beq_false_of_ne hp]

/-! ### A poll in vain -/

/-- The Txn command `i` stands at a poll of SR1, after its first action, whose condition does not hold; the controller has no step and is not
receiving. -/
structure Hangs (i : Instr) (c : Cond) (s : State) : Prop where
  running : running s = true
  binding : s.cfg.binding.wellFormed = true
  command : currentCommand s = some i
  isTxn : i.op.cls = .txn
  underWay : s.mpc ≠ 0
  line : (actionsOf s.cfg i)[s.mpc]? = some (.poll c)
  ofSr1 : c ≠ .stopSent
  unmet : condMet c s = false
  quiet : ∀ k, enabled k s = false
  notReceiving : s.phase ≠ .mrRx

/-- Where the controller has no step, the host moves, whatever the schedule, and the step is the command's. -/
theorem step_eq_exec_of_quiet {i : Instr} {s : State} (hr : running s = true) (hc : currentCommand s = some i)
    (hq : ∀ k, enabled k s = false) : step s = exec i (popSched s) := by
  obtain ⟨w, hw, hd⟩ := currentCommand_eq_some_iff.mp hc
  have hhost : hostEnabled s = true := by simp [hostEnabled, fault_eq_none_of_running hr, hw]
  exact stepRunsTheCommandAtCc s w i hr (mover_eq_host_iff.mpr ⟨hhost, .inr (controllerEnabled_eq_false_iff.mpr hq)⟩) hw hd

section
variable {i : Instr} {c : Cond} {s : State} (h : Hangs i c s)
include h

/-- The poll reads SR1 once more and stays. -/
theorem Hangs.step_eq : step s = .next (sr1Read (popSched s)) := by
  rw [step_eq_exec_of_quiet h.running h.command h.quiet]
  exact exec_of_line_again (s := popSched s) h.running h.binding h.isTxn rfl h.underWay h.line (lineEffect_poll h.ofSr1 h.unmet)

theorem Hangs.of_polled {t : State} (hp : Polled s t) : Hangs i c t := by
  have hquiet : ∀ k, enabled k t = false := fun k => (hp.enabled_eq h.notReceiving k).trans (h.quiet k)
  have hunmet : condMet c t = false := by
    rw [hp]
    cases c <;> exact h.unmet
  rw [hp] at hquiet hunmet ⊢
  exact { h with unmet := hunmet, quiet := hquiet }

/-- However many steps are taken, the poll is still there and only reads of SR1 were made. -/
theorem Hangs.run (n : Nat) : ∃ t, runsTo n s t ∧ Polled s t ∧ t.fault = none := by
  induction n generalizing s with
  | zero => exact ⟨s, rfl, rfl, fault_eq_none_of_running h.running⟩
  | succ n ih =>
    have hread : Polled s (sr1Read (popSched s)) := rfl
    obtain ⟨t, hrun, hpolled, hf⟩ := ih (h.of_polled hread)
    exact ⟨t, ⟨_, h.step_eq, hrun⟩, hread.trans hpolled, hf⟩

end

/-! ### After a NACK (R203–R205) -/

/-- No controller step leads out of MS_NACKED (R135). -/
theorem quiet_of_msNacked {s : State} (hp : s.phase = .msNacked) (k : ControllerStep) : enabled k s = false := by
  rw [Bool.eq_false_iff]
  intro hk
  simpa [hp, stepOfPhase] using stepOfPhase_of_enabled hk

/-- Settles O47: the data poll of either command stands in a phase the controller does not leave, at a flag only the controller sets. -/
theorem dataPollHangsAfterANack : Obligations.DataPollHangsAfterANack := by
  intro s i hr hb hc hmpc hp hpoll n
  have hangs {c : Cond} (hi : i.op.cls = .txn) (hline : (actionsOf s.cfg i)[1]? = some (.poll c)) (hsr1 : c ≠ .stopSent)
      (hunmet : condMet c s = false) : Hangs i c s :=
    ⟨hr, hb, hc, hi, by simp [hmpc], hmpc ▸ hline, hsr1, hunmet, quiet_of_msNacked hp, by simp [hp]⟩
  have hang : ∃ c, Hangs i c s := by
    rcases hpoll with ⟨rfl, hrxne⟩ | ⟨⟨b, rfl⟩, hbtf⟩
    · exact ⟨.byteReceived, hangs rfl rfl nofun hrxne⟩
    · exact ⟨.byteFinished, hangs rfl rfl nofun hbtf⟩
  obtain ⟨c, h⟩ := hang
  obtain ⟨t, hrun, hpolled, hf⟩ := h.run n
  refine ⟨t, hrun, ?_⟩
  rw [hpolled] at hf ⊢
  exact ⟨rfl, hmpc, hf, hp, rfl⟩

/-! ### Without a bus (R204, R221) -/

/-- In IDLE only GenStart could move, and it asks for PE and a free bus (R130). -/
theorem quiet_of_idle {s : State} (hp : s.phase = .idle) (hbus : s.cr.pe = false ∨ s.cfg.busStuck = true) (k : ControllerStep) :
    enabled k s = false := by
  rw [Bool.eq_false_iff]
  intro hk
  obtain rfl : ControllerStep.genStart = k := by simpa [hp, stepOfPhase] using stepOfPhase_of_enabled hk
  obtain ⟨-, -, hpe, hfree, -⟩ := enabled_genStart_iff.mp hk
  simp [hpe, hfree] at hbus

theorem hangs_of_begin {s : State} (hr : running s = true) (hb : s.cfg.binding.wellFormed = true)
    (hc : currentCommand s = some .beginTxn) (hp : s.phase = .idle) (hsb : s.sr1.sb = false)
    (hbus : s.cr.pe = false ∨ s.cfg.busStuck = true) (hmpc : s.mpc = 1) : Hangs .beginTxn .startSent s :=
  ⟨hr, hb, hc, rfl, by simp [hmpc], by rw [hmpc]; rfl, nofun, hsb, quiet_of_idle hp hbus, by simp [hp]⟩

/-- Settles O48: at its poll BEGIN hangs (`hangs_of_begin`), and its first action leads there. -/
theorem beginHangsWithoutABus : Obligations.BeginHangsWithoutABus := by
  refine ⟨rfl, fun s hr hb hc hp hsb hbus hstart n => ?_⟩
  rcases hstart with hmpc | ⟨hmpc, hcls, htxn, hstop⟩
  · obtain ⟨t, hrun, hpolled, hf⟩ := (hangs_of_begin hr hb hc hp hsb hbus hmpc).run (n + 1)
    refine ⟨t, hrun, ?_⟩
    rw [hpolled] at hf ⊢
    exact ⟨rfl, hmpc, hf, hp⟩
  · have hfirst := (beginRequestsAndAwaitsStart (popSched s) hr hb).1 hmpc hcls htxn hp hstop
    obtain ⟨t, hrun, hpolled, hf⟩ := (hangs_of_begin (s := { popSched s with
      rxWindowOpen := false, cr := { s.cr with start := true }, cls := some .txn, mpc := 1 }) hr hb hc hp hsb hbus rfl).run n
    refine ⟨t, ⟨_, (step_eq_exec_of_quiet hr hc (quiet_of_idle hp hbus)).trans hfirst, hrun⟩, ?_⟩
    rw [hpolled] at hf ⊢
    exact ⟨rfl, rfl, hf, hp⟩

end Sys2Proof.Machine
end

section
/-! The environment at launch, and the requests of CR in a Txn-class program (R222, R233). -/

namespace Sys2Proof.Machine

/-! ### Read-modify-writes of CR (R233) -/

/-- At every point but the two that wait for a request to be served, neither START nor STOP is set. -/
theorem Point.noRequest_of_holds {p : Point} {s : State} (h : p.holds s = true) (hstart : p ≠ .startAsked) (hstop : p ≠ .stopAsked) :
    noRequest s = true := by
  cases p
  case startAsked => contradiction
  case stopAsked => contradiction
  case idle => exact (Bool.and_eq_true_iff.mp h).2
  all_goals exact (of_decide_eq_true h).1

/-- A write of CR leads on from a point that waits for no request: START and STOP are each polled before the next one. -/
theorem Point.Leads.not_asked_of_controlWrite {p q : Point} {act : Action} (hl : p.Leads act q)
    (hw : act ∈ [Action.access .setStart, .access .setStop, .access .setAck, .access .clrAck]) :
    p ≠ .startAsked ∧ p ≠ .stopAsked := by
  cases hl
  case startSent => simp at hw
  case stopSent => simp at hw
  all_goals exact ⟨nofun, nofun⟩

/-- Settles O55: the write leads on from the point the state stands at, which therefore waits for no request. -/
theorem controlWritesFindNoRequestPending : Obligations.ControlWritesFindNoRequestPending := by
  intro s i act h hf hcls hc hi hlegal hact hw
  obtain ⟨-, -, p, hp, hholds⟩ := (txnInv_iff_standsAt hf hcls).mp h
  obtain ⟨q, hl, -⟩ := hp.leads hc hi hlegal hact
  obtain ⟨hstart, hstop⟩ := hl.not_asked_of_controlWrite hw
  simpa [noRequest] using Point.noRequest_of_holds hholds hstart hstop

/-! ### The launch state (R222) -/

section
variable (c : Config) (d : DeviceBinding) (regs : Memory) (present : Bool) (ws : List Word) (sc : List Agent)

theorem busIdle_launch : busIdle (launch c d regs present ws sc) = true := rfl

/-- A launch stands before its first command, so the invariant asks for T_IDLE and the free bus only. -/
theorem txnInv_launch (hb : c.binding.wellFormed = true) : TxnInv (launch c d regs present ws sc) = true :=
  txnInv_iff.mpr ⟨hb, fun _ => ⟨rfl, rfl, busIdle_launch c d regs present ws sc⟩, nofun⟩

/-- The reset state meets the clauses on the controller and the counters, and the parameters those on the bus and on HARDENED. -/
theorem cleanEntry_launch (hbus : c.busStuck = false) (hhard : c.hardened = false) :
    cleanEntry (launch c d regs present ws sc) = true :=
  decide_eq_true ⟨rfl, rfl, rfl, rfl, rfl, rfl, rfl, rfl, rfl, rfl, rfl, rfl, hbus, hhard⟩

end

/-- Settles O53: the two record updates are the definitions' own, and a launch meets `TxnInv` and `cleanEntry` by `txnInv_launch` and
`cleanEntry_launch`. -/
theorem launchIsACleanEntry : Obligations.LaunchIsACleanEntry :=
  ⟨fun _ => rfl, fun c d regs present ws sc =>
    ⟨rfl, txnInv_launch c d regs present ws sc, cleanEntry_launch c d regs present ws sc⟩⟩

end Sys2Proof.Machine
end
